-- ==== Sys2Proof/Word.lean ====
section
/-! DEFINITION. The word of the block (00_scope.md R12): the byte, and the two narrow fields of a
structured byte. Every quantity is unsigned; a point in time
and a duration are natural numbers of ticks (R9). -/

namespace Sys2Proof

/-- A byte; bit 0 is the least significant (00_scope.md R12). -/
abbrev Byte := BitVec 8

/-- A 3-bit field of a header byte: a size field, or a mode, command or SYS code (30_encoding.md R91). -/
abbrev Field3 := BitVec 3

/-- A logical mode number, 0 to 15 (30_encoding.md R104). -/
abbrev LogicalMode := BitVec 4

end Sys2Proof
end

