-- ==== Sys2Proof/Config.lean ====
section
/-! DEFINITION. What the environment fixes: the configuration object of 10_state.md R24, and the free
values for what the spec leaves unspecified (10_state.md R55, 70_reset_and_hazards.md R382). -/

namespace Sys2Proof

/-- The configuration object `cfg` of 10_state.md R24. The spec gives no value for any field
(92_eei_decisions.md section 4), so every statement holds for every value. -/
structure Cfg where
  /-- `cfg.ref_blob`: the bytes the peer must send in the handshake. -/
  refBlob : List Byte
  /-- `cfg.handshake_baud`: the baud rate the transport is opened at. -/
  handshakeBaud : Nat
  /-- `cfg.production_baud`: the baud rate after the handshake. -/
  productionBaud : Nat
  /-- `cfg.hs_attempts`: the fixed attempt count of the bounded retry. -/
  hsAttempts : Nat
  /-- `cfg.settle_delay`: from sending the ACK to switching the baud rate. -/
  settleDelay : Nat
  /-- `cfg.keepalive_interval`: the keep-alive period. -/
  keepaliveInterval : Nat
  /-- `cfg.min_query_spacing`: the least time between two queries. -/
  minQuerySpacing : Nat
  /-- `cfg.read_timeout`: the bound of a transport read. Kept by the transport: no rule of the block
  reads it (60_exceptions.md R360). -/
  readTimeout : Nat
  /-- `cfg.sys_ack`: the SYS byte sent as ACK. -/
  sysAck : Byte
  /-- `cfg.sys_keepalive`: the keep-alive byte. -/
  sysKeepalive : Byte
  /-- `cfg.ext_lo`: EXT_MODE payload of a two-part write to a logical mode 0 to 7. -/
  extLo : Byte
  /-- `cfg.ext_hi`: EXT_MODE payload of a two-part write to a logical mode 8 to 15. -/
  extHi : Byte
  deriving DecidableEq, Repr

/-! Free values (notes/assumptions/6.md, 7.md). The registers 10_state.md R55 calls unspecified after
`EvReset` hold after it a value nothing constrains: one of these constants, which have no body,
applied to the counter `freeCount` of State. -/

/-- `last_keepalive_time` after a reset. -/
opaque Config.freeLastKeepaliveTime : Nat → Nat
/-- `last_query_time` after a reset. -/
opaque Config.freeLastQueryTime : Nat → Nat
/-- `settle_deadline` after a reset. -/
opaque Config.freeSettleDeadline : Nat → Nat
/-- `active_baud` after a reset. -/
opaque Config.freeActiveBaud : Nat → Nat
/-- `rx_hdr` after a reset or a fatal entry. -/
opaque Config.freeRxHdr : Nat → Byte
/-- `rx_sub` after a reset or a fatal entry. -/
opaque Config.freeRxSub : Nat → Byte
/-- `rx_len` after a reset or a fatal entry. -/
opaque Config.freeRxLen : Nat → BitVec 6
/-- `rx_buf[0..31]` after a reset or a fatal entry. -/
opaque Config.freeRxBuf : Nat → Vector Byte 32

end Sys2Proof
end

