-- ==== Sys2Proof/Syntax.lean ====
section
/-! DEFINITION. The message kinds of spec/opcode_table.json, the block's instructions
(00_scope.md R1, R2), with the operands their frames carry (30_encoding.md R90). -/

namespace Sys2Proof

/-- The category of a header byte (30_encoding.md R92). -/
inductive Category where
  | sys | cmd | info | data
  deriving DecidableEq, Repr

/-- The 19 message kinds, one per row of spec/opcode_table.json, as bare names (the `kind` argument of
the `Malformed` marker, 44_frame_decoder.md R235). -/
inductive Kind where
  | sys
  | cmdType | cmdModes | cmdSpeed | cmdSelect | cmdWrite | cmdUnk1 | cmdExtMode | cmdVersion
  | infoName | infoRaw | infoPct | infoSi | infoUnits | infoMapping | infoModeCombos | infoFormat
  | infoUnsupported
  | data
  deriving DecidableEq, Repr

/-- A received frame, by message kind: one constructor per row of spec/opcode_table.json.
`sc` is the size class, header bits 5:3; `wire` the 3-bit mode of an INFO or DATA header; `plus8` bit 5
of the INFO subtype byte (30_encoding.md R103); `payload` the bytes as received, padding included;
`chk` the received checksum byte, right or wrong (44_frame_decoder.md R224). -/
inductive Instr where
  /-- SYS: one byte, size bits carried and not interpreted (40_sys.md R131). -/
  | sys (sizeBits code : Field3)
  /-- CMD.TYPE (41_cmd.md R141). -/
  | cmdType (sc : Field3) (payload : List Byte) (chk : Byte)
  /-- CMD.MODES (41_cmd.md R143). -/
  | cmdModes (sc : Field3) (payload : List Byte) (chk : Byte)
  /-- CMD.SPEED (41_cmd.md R145). -/
  | cmdSpeed (sc : Field3) (payload : List Byte) (chk : Byte)
  /-- CMD.SELECT (41_cmd.md R147). -/
  | cmdSelect (sc : Field3) (payload : List Byte) (chk : Byte)
  /-- CMD.WRITE (41_cmd.md R149). -/
  | cmdWrite (sc : Field3) (payload : List Byte) (chk : Byte)
  /-- CMD.UNK1 (41_cmd.md R151). -/
  | cmdUnk1 (sc : Field3) (payload : List Byte) (chk : Byte)
  /-- CMD.EXT_MODE (41_cmd.md R153). -/
  | cmdExtMode (sc : Field3) (payload : List Byte) (chk : Byte)
  /-- CMD.VERSION (41_cmd.md R155). -/
  | cmdVersion (sc : Field3) (payload : List Byte) (chk : Byte)
  /-- INFO.NAME (42_info.md R172). -/
  | infoName (sc wire : Field3) (plus8 : Bool) (payload : List Byte) (chk : Byte)
  /-- INFO.RAW (42_info.md R178). -/
  | infoRaw (sc wire : Field3) (plus8 : Bool) (payload : List Byte) (chk : Byte)
  /-- INFO.PCT (42_info.md R180). -/
  | infoPct (sc wire : Field3) (plus8 : Bool) (payload : List Byte) (chk : Byte)
  /-- INFO.SI (42_info.md R182). -/
  | infoSi (sc wire : Field3) (plus8 : Bool) (payload : List Byte) (chk : Byte)
  /-- INFO.UNITS (42_info.md R184). -/
  | infoUnits (sc wire : Field3) (plus8 : Bool) (payload : List Byte) (chk : Byte)
  /-- INFO.MAPPING (42_info.md R186). -/
  | infoMapping (sc wire : Field3) (plus8 : Bool) (payload : List Byte) (chk : Byte)
  /-- INFO.MODE_COMBOS (42_info.md R192). -/
  | infoModeCombos (sc wire : Field3) (plus8 : Bool) (payload : List Byte) (chk : Byte)
  /-- INFO.FORMAT (42_info.md R195). -/
  | infoFormat (sc wire : Field3) (plus8 : Bool) (payload : List Byte) (chk : Byte)
  /-- INFO.UNSUPPORTED: any other subtype id, bit 5 of which is clear (42_info.md R200). -/
  | infoUnsupported (sc wire : Field3) (plus8 : Bool) (subtypeId : Byte) (payload : List Byte) (chk : Byte)
  /-- DATA (43_data.md R211). -/
  | data (sc wire : Field3) (payload : List Byte) (chk : Byte)
  deriving DecidableEq, Repr

end Sys2Proof
end

