-- ==== Sys2Proof/WellFormed.lean ====
section
/-! DEFINITION. Which terms of `Instr` stand for a frame: the size class is one of the six defined
(30_encoding.md R93, R113), the payload has the declared length (R90), and the id of an unknown INFO
subtype is one (R115). -/

namespace Sys2Proof

/-- The size class is not reserved and the payload has `1 << sc` bytes (30_encoding.md R93). -/
def bodyWf (sc : Field3) (payload : List Byte) : Bool :=
  decide (sc.toNat < 6) && payload.length == 2 ^ sc.toNat

/-- A subtype id that is none of the eight: bit 5 clear, not 0 to 6, not `0x80` (30_encoding.md R115). -/
def unknownIdWf (id : Byte) : Bool :=
  !id.getLsbD 5 && decide (6 < id.toNat) && id != 0x80#8

/-- The instruction is a frame that can stand on the wire. -/
def Instr.wf : Instr → Bool
  | .sys _ _ => true
  | .cmdType sc p _ => bodyWf sc p
  | .cmdModes sc p _ => bodyWf sc p
  | .cmdSpeed sc p _ => bodyWf sc p
  | .cmdSelect sc p _ => bodyWf sc p
  | .cmdWrite sc p _ => bodyWf sc p
  | .cmdUnk1 sc p _ => bodyWf sc p
  | .cmdExtMode sc p _ => bodyWf sc p
  | .cmdVersion sc p _ => bodyWf sc p
  | .infoName sc _ _ p _ => bodyWf sc p
  | .infoRaw sc _ _ p _ => bodyWf sc p
  | .infoPct sc _ _ p _ => bodyWf sc p
  | .infoSi sc _ _ p _ => bodyWf sc p
  | .infoUnits sc _ _ p _ => bodyWf sc p
  | .infoMapping sc _ _ p _ => bodyWf sc p
  | .infoModeCombos sc _ _ p _ => bodyWf sc p
  | .infoFormat sc _ _ p _ => bodyWf sc p
  | .infoUnsupported sc _ _ id p _ => bodyWf sc p && unknownIdWf id
  | .data sc _ p _ => bodyWf sc p

end Sys2Proof
end

