-- ==== Sys2Proof/Decode.lean ====
section
/-! DEFINITION. The header codec's decode side, the frame reader, the selection of the message kind,
and the encoder back to bytes (30_encoding.md R90 to R96, R103, R112; 44_frame_decoder.md R222). -/

namespace Sys2Proof

/-! ### Fields of a header byte and of a subtype byte -/

/-- The 2-bit code of a category: SYS 0, CMD 1, INFO 2, DATA 3 (30_encoding.md R92). -/
def Category.bits : Category → BitVec 2
  | .sys => 0
  | .cmd => 1
  | .info => 2
  | .data => 3

/-- The category of a header byte, bits 7:6; all four codes are defined (30_encoding.md R92). -/
def categoryOf (h : Byte) : Category :=
  match (h.extractLsb' 6 2).toNat with
  | 0 => .sys
  | 1 => .cmd
  | 2 => .info
  | _ => .data

/-- Header bits 5:3 (30_encoding.md R91). -/
def sizeField (h : Byte) : Field3 := h.extractLsb' 3 3

/-- Header bits 2:0 (30_encoding.md R91). -/
def codeField (h : Byte) : Field3 := h.extractLsb' 0 3

/-- `header = (category << 6) | (size_class << 3) | mode_or_cmd` (30_encoding.md R91). -/
def headerByte (cat : Category) (sc m : Field3) : Byte := cat.bits ++ sc ++ m

/-- `subtype_id = sub_raw & 0xDF` (30_encoding.md R103). -/
def subtypeIdOf (sub : Byte) : Byte := sub &&& 0xDF#8

/-- The mode-plus-8 flag, bit 5 of the subtype byte (30_encoding.md R103). -/
def plus8Of (sub : Byte) : Bool := sub.getLsbD 5

/-- `subtype_id | (plus8 << 5)` (45_tx_encoder.md R258). -/
def subtypeByte (id : Byte) (plus8 : Bool) : Byte := if plus8 then id ||| 0x20#8 else id

/-- The result of `decode_header` (30_encoding.md R96). -/
inductive HeaderInfo where
  /-- A SYS byte: a frame of total size 1. -/
  | sys (code : Field3)
  /-- Size class 6 or 7 outside SYS (30_encoding.md R113). -/
  | reserved (cat : Category) (m sc : Field3)
  /-- A CMD, INFO or DATA header with its total frame size. -/
  | frame (cat : Category) (m : Field3) (totalSize : Nat)
  deriving DecidableEq, Repr

/-- The frame bytes that are not payload (30_encoding.md R94). -/
def overhead : Category → Nat
  | .sys => 1
  | .cmd => 2
  | .info => 3
  | .data => 2

/-- `decode_header`, total on all 256 bytes (30_encoding.md R96). -/
def decodeHeader (b : Byte) : HeaderInfo :=
  let cat := categoryOf b
  let sc := sizeField b
  let m := codeField b
  if cat = .sys then .sys m
  else if 6 ≤ sc.toNat then .reserved cat m sc
  else .frame cat m (2 ^ sc.toNat + overhead cat)

/-! ### Reading one frame -/

/-- The bytes of one frame, before the message kind is selected (30_encoding.md R90). -/
inductive RawFrame where
  /-- Format S: the header alone. -/
  | single (hdr : Byte)
  /-- Formats C and D. -/
  | plain (hdr : Byte) (payload : List Byte) (chk : Byte)
  /-- Format I. -/
  | withSub (hdr sub : Byte) (payload : List Byte) (chk : Byte)
  deriving DecidableEq, Repr

/-- Why no frame could be read (44_frame_decoder.md R222, R223). -/
inductive DecodeError where
  /-- The input is exhausted at a frame boundary. -/
  | endOfInput
  /-- The input is exhausted inside a frame. -/
  | truncated
  /-- A CMD, INFO or DATA header with size class 6 or 7. -/
  | reservedSizeClass (hdr : Byte)
  deriving DecidableEq, Repr

/-- The payload of `n` bytes, the checksum byte after it, and what follows; `none` when the bytes run
out first (44_frame_decoder.md R222). -/
def takeBody (n : Nat) (bs : List Byte) : Option (List Byte × Byte × List Byte) :=
  match bs.drop n with
  | [] => none
  | c :: rest => some (bs.take n, c, rest)

/-- One turn of the loop of `decode_stream`: the bytes of the next frame and what follows it
(44_frame_decoder.md R222). -/
def readFrame (bs : List Byte) : Except DecodeError (RawFrame × List Byte) :=
  match bs with
  | [] => .error .endOfInput
  | h :: t =>
    match decodeHeader h with
    | .sys _ => .ok (.single h, t)
    | .reserved _ _ _ => .error (.reservedSizeClass h)
    | .frame .info _ total =>
      match t with
      | [] => .error .truncated
      | sub :: t' =>
        match takeBody (total - 2 - 1) t' with
        | none => .error .truncated
        | some (p, c, rest) => .ok (.withSub h sub p c, rest)
    | .frame _ _ total =>
      match takeBody (total - 1 - 1) t with
      | none => .error .truncated
      | some (p, c, rest) => .ok (.plain h p c, rest)

/-! ### Selecting the message kind -/

/-- The CMD kind named by the command field; all eight codes are assigned (30_encoding.md R106). -/
def selectCmd (h : Byte) (p : List Byte) (chk : Byte) : Instr :=
  match (codeField h).toNat with
  | 0 => .cmdType (sizeField h) p chk
  | 1 => .cmdModes (sizeField h) p chk
  | 2 => .cmdSpeed (sizeField h) p chk
  | 3 => .cmdSelect (sizeField h) p chk
  | 4 => .cmdWrite (sizeField h) p chk
  | 5 => .cmdUnk1 (sizeField h) p chk
  | 6 => .cmdExtMode (sizeField h) p chk
  | _ => .cmdVersion (sizeField h) p chk

/-- The INFO kind named by the subtype id (30_encoding.md R107, R112, R115). -/
def selectInfo (h sub : Byte) (p : List Byte) (chk : Byte) : Instr :=
  let sc := sizeField h
  let wire := codeField h
  let plus8 := plus8Of sub
  match (subtypeIdOf sub).toNat with
  | 0 => .infoName sc wire plus8 p chk
  | 1 => .infoRaw sc wire plus8 p chk
  | 2 => .infoPct sc wire plus8 p chk
  | 3 => .infoSi sc wire plus8 p chk
  | 4 => .infoUnits sc wire plus8 p chk
  | 5 => .infoMapping sc wire plus8 p chk
  | 6 => .infoModeCombos sc wire plus8 p chk
  | 0x80 => .infoFormat sc wire plus8 p chk
  | _ => .infoUnsupported sc wire plus8 (subtypeIdOf sub) p chk

/-- The message kind is a function of the header byte and, for INFO, of the subtype byte
(30_encoding.md R112). -/
def instrOf : RawFrame → Instr
  | .single h => .sys (sizeField h) (codeField h)
  | .plain h p chk =>
    if categoryOf h = .cmd then selectCmd h p chk else .data (sizeField h) (codeField h) p chk
  | .withSub h sub p chk => selectInfo h sub p chk

/-- Decode the first frame of a byte sequence; total, rejecting by name. -/
def decode (bs : List Byte) : Except DecodeError (Instr × List Byte) :=
  match readFrame bs with
  | .error e => .error e
  | .ok (raw, rest) => .ok (instrOf raw, rest)

/-! ### The encoder -/

/-- A CMD frame: command `cmd` (30_encoding.md R90, R106). -/
def rawCmd (cmd : Field3) (sc : Field3) (p : List Byte) (chk : Byte) : RawFrame :=
  .plain (headerByte .cmd sc cmd) p chk

/-- An INFO frame: subtype id `id` (30_encoding.md R90, R107). -/
def rawInfo (id : Byte) (sc wire : Field3) (plus8 : Bool) (p : List Byte) (chk : Byte) : RawFrame :=
  .withSub (headerByte .info sc wire) (subtypeByte id plus8) p chk

/-- The frame an instruction stands for, from the encoding tables (30_encoding.md R90 to R107). -/
def rawOf : Instr → RawFrame
  | .sys sizeBits code => .single (headerByte .sys sizeBits code)
  | .cmdType sc p chk => rawCmd 0 sc p chk
  | .cmdModes sc p chk => rawCmd 1 sc p chk
  | .cmdSpeed sc p chk => rawCmd 2 sc p chk
  | .cmdSelect sc p chk => rawCmd 3 sc p chk
  | .cmdWrite sc p chk => rawCmd 4 sc p chk
  | .cmdUnk1 sc p chk => rawCmd 5 sc p chk
  | .cmdExtMode sc p chk => rawCmd 6 sc p chk
  | .cmdVersion sc p chk => rawCmd 7 sc p chk
  | .infoName sc wire plus8 p chk => rawInfo 0x00 sc wire plus8 p chk
  | .infoRaw sc wire plus8 p chk => rawInfo 0x01 sc wire plus8 p chk
  | .infoPct sc wire plus8 p chk => rawInfo 0x02 sc wire plus8 p chk
  | .infoSi sc wire plus8 p chk => rawInfo 0x03 sc wire plus8 p chk
  | .infoUnits sc wire plus8 p chk => rawInfo 0x04 sc wire plus8 p chk
  | .infoMapping sc wire plus8 p chk => rawInfo 0x05 sc wire plus8 p chk
  | .infoModeCombos sc wire plus8 p chk => rawInfo 0x06 sc wire plus8 p chk
  | .infoFormat sc wire plus8 p chk => rawInfo 0x80 sc wire plus8 p chk
  | .infoUnsupported sc wire plus8 id p chk => rawInfo id sc wire plus8 p chk
  | .data sc wire p chk => .plain (headerByte .data sc wire) p chk

/-- The bytes of a frame, in order: header, subtype byte, payload, checksum (20_memory.md R67). -/
def RawFrame.bytes : RawFrame → List Byte
  | .single h => [h]
  | .plain h p chk => h :: (p ++ [chk])
  | .withSub h sub p chk => h :: sub :: (p ++ [chk])

/-- The bytes of an instruction. -/
def encode (i : Instr) : List Byte := (rawOf i).bytes

/-- The kind of an instruction. -/
def Instr.kind : Instr → Kind
  | .sys _ _ => .sys
  | .cmdType _ _ _ => .cmdType
  | .cmdModes _ _ _ => .cmdModes
  | .cmdSpeed _ _ _ => .cmdSpeed
  | .cmdSelect _ _ _ => .cmdSelect
  | .cmdWrite _ _ _ => .cmdWrite
  | .cmdUnk1 _ _ _ => .cmdUnk1
  | .cmdExtMode _ _ _ => .cmdExtMode
  | .cmdVersion _ _ _ => .cmdVersion
  | .infoName _ _ _ _ _ => .infoName
  | .infoRaw _ _ _ _ _ => .infoRaw
  | .infoPct _ _ _ _ _ => .infoPct
  | .infoSi _ _ _ _ _ => .infoSi
  | .infoUnits _ _ _ _ _ => .infoUnits
  | .infoMapping _ _ _ _ _ => .infoMapping
  | .infoModeCombos _ _ _ _ _ => .infoModeCombos
  | .infoFormat _ _ _ _ _ => .infoFormat
  | .infoUnsupported _ _ _ _ _ _ => .infoUnsupported
  | .data _ _ _ _ => .data

/-- Total frame size: 1 for SYS, `payload_length + overhead` otherwise (30_encoding.md R94). -/
def totalSize (cat : Category) (sc : Field3) : Nat :=
  if cat = .sys then 1 else 2 ^ sc.toNat + overhead cat

/-! ### One row of the opcode table as words -/

/-- The longest frame: INFO, size class 5 (00_scope.md R10). -/
def longestFrame : Nat := 35

/-- The bytes of a table word of `nbits` bits, followed by zeros up to the longest frame. The table
numbers a 16-bit word as `(header << 8) | subtype byte` (30_encoding.md R112), so the most significant
byte is the first on the wire (notes/assumptions/8.md). -/
def tableWordBytes (nbits w : Nat) : List Byte :=
  let n := nbits / 8
  let given := (List.range n).map fun k => BitVec.ofNat 8 (w >>> (8 * (n - 1 - k)))
  given ++ List.replicate (longestFrame - n) 0

/-- The instruction the decoder reads from a word of spec/opcode_table.json. -/
def decodeTableWord (nbits w : Nat) : Option Instr :=
  match decode (tableWordBytes nbits w) with
  | .ok (i, _) => some i
  | .error _ => none

/-- A row of spec/opcode_table.json: a kind, the width of its word, its match and its mask
(30_encoding.md R112). -/
structure OpcodeRow where
  kind : Kind
  width : Nat
  matchBits : BitVec 16
  mask : BitVec 16
  deriving DecidableEq, Repr

/-- spec/opcode_table.json, row by row in its order; `INFO.UNSUPPORTED` has the lowest priority. -/
def opcodeTable : List OpcodeRow :=
  [⟨.sys, 8, 0x00, 0xC0⟩,
   ⟨.cmdType, 8, 0x40, 0xC7⟩, ⟨.cmdModes, 8, 0x41, 0xC7⟩, ⟨.cmdSpeed, 8, 0x42, 0xC7⟩,
   ⟨.cmdSelect, 8, 0x43, 0xC7⟩, ⟨.cmdWrite, 8, 0x44, 0xC7⟩, ⟨.cmdUnk1, 8, 0x45, 0xC7⟩,
   ⟨.cmdExtMode, 8, 0x46, 0xC7⟩, ⟨.cmdVersion, 8, 0x47, 0xC7⟩,
   ⟨.infoName, 16, 0x8000, 0xC0DF⟩, ⟨.infoRaw, 16, 0x8001, 0xC0DF⟩, ⟨.infoPct, 16, 0x8002, 0xC0DF⟩,
   ⟨.infoSi, 16, 0x8003, 0xC0DF⟩, ⟨.infoUnits, 16, 0x8004, 0xC0DF⟩,
   ⟨.infoMapping, 16, 0x8005, 0xC0DF⟩, ⟨.infoModeCombos, 16, 0x8006, 0xC0DF⟩,
   ⟨.infoFormat, 16, 0x8080, 0xC0DF⟩, ⟨.infoUnsupported, 16, 0x8000, 0xC000⟩,
   ⟨.data, 8, 0xC0, 0xC0⟩]

/-- The row applies to a header byte and the byte after it (30_encoding.md R112). -/
def OpcodeRow.applies (r : OpcodeRow) (hdr next : Byte) : Bool :=
  let word : BitVec 16 := if r.width = 8 then hdr.setWidth 16 else hdr ++ next
  word &&& r.mask == r.matchBits

/-- The rows that apply, `INFO.UNSUPPORTED` only when no other does (30_encoding.md R112). -/
def kindsSelected (hdr next : Byte) : List Kind :=
  let hits := (opcodeTable.filter fun r => r.applies hdr next).map (·.kind)
  if hits.length ≤ 1 then hits else hits.filter (· != .infoUnsupported)

end Sys2Proof
end

