-- ==== Sys2Proof/Machine/Records.lean ====
section
/-! DEFINITION. The transient records that pass between the parts of the block: frame record, decoded
message, delivery record, message specification, query, condition, event, action (10_state.md R33 to
R38, R50, R52; 60_exceptions.md R332). All plain data. -/

namespace Sys2Proof.Machine

/-! ### Decoded messages (10_state.md R36) -/

/-- One record of CMD.VERSION (41_cmd.md R155). -/
structure Version where
  major : BitVec 4
  minor : BitVec 4
  bugfix : BitVec 8
  build : BitVec 16
  deriving DecidableEq, Repr

/-- The decoded message, a tagged union with one constructor per message kind and the two markers
(10_state.md R36). A text, a raw payload and a flags suffix are byte strings; a mode set is the list of
its members, ascending. -/
inductive Msg where
  | sys (code sizeBits : Field3)
  | cmdType (typeId : Byte)
  /-- The counts present, in the order modes, views, modes2, views2; each 1 to 256 in 9 bits. -/
  | cmdModes (counts : List (BitVec 9))
  | cmdSpeed (baud : BitVec 32)
  | cmdSelect (raw : List Byte)
  | cmdWrite (raw : List Byte)
  | cmdUnk1 (raw : List Byte)
  | cmdExtMode (raw : List Byte)
  | cmdVersion (fw hw : Version)
  | infoName (mode : LogicalMode) (text : List Byte) (flags : Option (List Byte))
  | infoRaw (mode : LogicalMode) (min max : BitVec 32)
  | infoPct (mode : LogicalMode) (min max : BitVec 32)
  | infoSi (mode : LogicalMode) (min max : BitVec 32)
  | infoUnits (mode : LogicalMode) (text : List Byte) (flags : Option (List Byte))
  | infoMapping (mode : LogicalMode) (inputFlags outputFlags : Byte)
  | infoModeCombos (mode : LogicalMode) (words : List (BitVec 16)) (modes : List LogicalMode)
  | infoFormat (mode : LogicalMode) (dataSets dataFormat figures decimals : Byte)
      (sizeViolation formatReserved : Bool)
  | data (mode : Field3) (raw : List Byte)
  /-- Marker: an INFO subtype id outside the eight (42_info.md R200). -/
  | unsupported (mode : LogicalMode) (subtypeId : Byte) (raw : List Byte)
  /-- Marker: a payload length the kind does not allow (44_frame_decoder.md R235). -/
  | malformed (kind : Kind) (raw : List Byte)
  deriving DecidableEq, Repr

/-! ### Frame and delivery records (10_state.md R34, R37) -/

/-- The frame record the decoder yields for each frame (10_state.md R34). -/
structure Frame where
  hdr : Byte
  cat : Category
  sizeBits : Field3
  code : Field3
  subRaw : Option Byte
  /-- INFO: logical mode; DATA: wire mode 0 to 7; CMD and SYS: none. -/
  mode : Option LogicalMode
  payload : List Byte
  chkRx : Option Byte
  chkCalc : Option Byte
  chkFault : Bool
  msg : Msg
  deriving DecidableEq, Repr

/-- The delivery record (10_state.md R37). -/
structure Delivery where
  frame : Frame
  ext : Option Frame
  deriving DecidableEq, Repr

/-! ### Message specifications and queries (45_tx_encoder.md R251, 10_state.md R38)

Operands are natural numbers where the encode rule tests a range, so that a host can hand over a value
out of range and be refused (notes/assumptions/15.md). -/

/-- The symbolic names of the MAPPING bits, and any other spelling (42_info.md R187, R188). -/
inductive MappingName where
  | null | funcMapping2 | absolute | relative | discrete
  /-- "N/A", the ambiguous name. -/
  | notApplicable
  /-- A name that is not in the table of R187. -/
  | other (spelling : String)
  deriving DecidableEq, Repr

/-- One of the two operands of MAPPING encode: a byte value or a set of names (42_info.md R188). -/
inductive FlagArg where
  | byteValue (v : Nat)
  | names (ns : List MappingName)
  deriving DecidableEq, Repr

/-- The operands of one version record on encode (41_cmd.md R156). -/
structure VersionSpec where
  major : Nat
  minor : Nat
  bugfix : Nat
  build : Nat
  deriving DecidableEq, Repr

/-- A message specification: what the builder of each kind takes (45_tx_encoder.md R251). There is none
for an unknown subtype (42_info.md R200). -/
inductive MsgSpec where
  | sys (b : Nat)
  | cmdType (typeId : Nat)
  | cmdModes (counts : List Nat)
  | cmdSpeed (baud : Nat)
  | cmdSelect (raw : List Byte)
  | cmdWrite (raw : List Byte)
  | cmdUnk1 (raw : List Byte)
  | cmdExtMode (raw : List Byte)
  | cmdVersion (fw hw : VersionSpec)
  | infoName (mode : Nat) (text : List Byte) (flags : Option (List Byte))
  | infoRaw (mode : Nat) (min max : BitVec 32)
  | infoPct (mode : Nat) (min max : BitVec 32)
  | infoSi (mode : Nat) (min max : BitVec 32)
  | infoUnits (mode : Nat) (text : List Byte) (flags : Option (List Byte))
  | infoMapping (mode : Nat) (input output : Option FlagArg)
  | infoModeCombos (mode : Nat) (words : List Nat)
  | infoFormat (mode dataSets dataFormat figures decimals : Nat)
  | data (mode : Nat) (raw : List Byte)
  deriving DecidableEq, Repr

/-- A host query (10_state.md R38). -/
inductive Query where
  | frame (spec : MsgSpec)
  | write (mode : Nat) (payload : List Byte) (twoPart : Bool)
  deriving DecidableEq, Repr

/-- The encoded query kept in `pending_query` (10_state.md R38). -/
structure EncodedQuery where
  bytes : List Byte
  multipart : Bool
  deriving DecidableEq, Repr

/-- What a builder returns: the bytes, and the warnings that go back with them (42_info.md R188,
R197). -/
structure Built where
  bytes : List Byte
  ambiguousName : Bool := false
  sizeViolation : Bool := false
  formatReserved : Bool := false
  deriving DecidableEq, Repr

/-! ### Conditions, actions, events -/

/-- The conditions of 60_exceptions.md R332 that an action or a pure function reports (the two markers
are values of `Msg`). -/
inductive Condition where
  /-- Fatal: the last allowed handshake attempt failed. -/
  | deviceNotFound
  /-- Fatal: `PeerDisconnect(ShortRead)`, a read timed out inside a frame. -/
  | peerDisconnect
  /-- Fatal: the transport was closed. -/
  | transportClosed
  /-- Fatal: `MalformedStream(ReservedSizeClass)`, with the header byte. -/
  | reservedSizeClass (hdr : Byte)
  /-- Result of the pure function only: `MalformedStream(Truncated)`. -/
  | truncated
  /-- Fault: received and computed checksum bytes differ. -/
  | checksumFault (received computed : Byte)
  /-- Fault: a handshake attempt failed, with the attempts remaining. -/
  | handshakeMismatch (left : Nat)
  /-- Reject: an operand of a build outside its range. -/
  | fieldOutOfRange
  /-- Reject: a required flag field absent or of the wrong length. -/
  | missingFlagField
  /-- Reject: oversized text. -/
  | textTooLong
  /-- Reject: payload length 0 or above 32. -/
  | sizeOutOfRange (length : Nat)
  /-- Reject: a query is already waiting. -/
  | queryBusy
  /-- Reject: a query outside `Active`. -/
  | notActive
  /-- Reject: a start outside `Disconnected`. -/
  | alreadyStarted
  deriving DecidableEq, Repr

/-- The output actions (10_state.md R52). -/
inductive Action where
  | openTransport (baud : Nat)
  | setBaud (baud : Nat)
  | closeTransport
  | tx (bytes : List Byte)
  | deliver (record : Delivery)
  | report (c : Condition)
  | reject (c : Condition)
  deriving DecidableEq, Repr

/-- The events (10_state.md R50). -/
inductive Event where
  | reset
  | start
  | rx (b : Byte)
  | idle
  | closed
  | submit (q : Query)
  deriving DecidableEq, Repr

/-- One input of the machine: an event with its time (10_state.md R50), or the host's writing of the
configuration object (10_state.md R24; notes/assumptions/3.md). -/
inductive Input where
  | event (ev : Event) (now : Nat)
  | configure (cfg : Cfg)
  deriving DecidableEq, Repr

end Sys2Proof.Machine
end

