-- ==== Sys2Proof/Machine/State.lean ====
section
/-! DEFINITION. The state of the block (10_state.md R20 to R31), its parameters and its boundary, the
reasons the model stops, and the state after reset (10_state.md R55). -/

namespace Sys2Proof.Machine

/-- The session phase (10_state.md R21, 60_exceptions.md R358). -/
inductive Phase where
  | disconnected | handshaking | active
  deriving DecidableEq, Repr

/-- The sub-state of `Handshaking` (10_state.md R22). -/
inductive HsStep where
  | capture | settle
  deriving DecidableEq, Repr

/-- Where inside a frame the next byte falls (10_state.md R31). -/
inductive RxState where
  | idle | sub | pay | chk
  deriving DecidableEq, Repr

/-- Why the machine stops with a fault. Neither is a condition of the spec, which has no access fault
(60_exceptions.md R332): each stands for decoder registers that no run from reset holds, where no rule
says what happens (notes/assumptions/11.md). -/
inductive Fault where
  /-- Raised by the payload state of the frame decoder when `rx_cnt` is past the last register of
  `rx_buf` (20_memory.md R60: the index never exceeds `rx_len - 1`). Safe: the model stops. -/
  | payloadIndex (index : Nat)
  /-- Raised by the checksum state of the frame decoder when the registers do not hold the bytes of one
  frame. Safe: the model stops. -/
  | frameRegisters
  deriving DecidableEq, Repr

/-- Why the machine refuses an input. -/
inductive Refusal where
  /-- An instruction that has no meaning in the model yet. Raised by no arm: safe. -/
  | notModelled (mnemonic : String)
  /-- Raised by `EvStart` in `Disconnected` with a configuration that is not well-formed, as 10_state.md
  R25 asks of a model. Safe: the model stops. -/
  | illFormedConfig
  /-- Raised by a write of the configuration object while `phase` is not `Disconnected`, which
  10_state.md R24 forbids (93_implementation_defined.md V4). Safe: the model stops. -/
  | configInSession
  deriving DecidableEq, Repr

/-- The state of the machine: every register of 10_state.md R21, R22, R26 and R31; the parameters of the
spec's step function; the inputs to come and the outputs produced. -/
structure State where
  /-- `phase` (R21). -/
  phase : Phase
  /-- `last_keepalive_time`, in ticks (R21). -/
  lastKeepaliveTime : Nat
  /-- `last_query_time`, in ticks (R21). -/
  lastQueryTime : Nat
  /-- `multipart_pending` (R21, R29). -/
  multipartPending : Bool
  /-- `active_baud` (R21). -/
  activeBaud : Nat
  /-- `hs_step` (R22). -/
  hsStep : HsStep
  /-- `hs_buf` (R22). -/
  hsBuf : List Byte
  /-- `hs_left` (R22). -/
  hsLeft : Nat
  /-- `settle_deadline`, in ticks (R22). -/
  settleDeadline : Nat
  /-- `pending_query` (R22). -/
  pendingQuery : Option EncodedQuery
  /-- `ext_hold` (R22). -/
  extHold : Option Frame
  /-- `rx_hdr` (R26). -/
  rxHdr : Byte
  /-- `rx_sub` (R26). -/
  rxSub : Byte
  /-- `rx_buf[0..31]` (R26). -/
  rxBuf : Vector Byte 32
  /-- `rx_len`, 6 bits (R26). -/
  rxLen : BitVec 6
  /-- `rx_cnt`, 6 bits (R26). -/
  rxCnt : BitVec 6
  /-- `rx_acc` (R26). -/
  rxAcc : Byte
  /-- `rx_pos`, which does not wrap (R31). -/
  rxPos : Nat
  /-- `rx_state` (R31). -/
  rxState : RxState
  /-- The configuration object, a parameter of the spec's step function (R24; notes/assumptions/3.md). -/
  cfg : Cfg
  /-- The open parameter `TICK`, in nanoseconds (00_scope.md R9; notes/assumptions/4.md). -/
  tickNs : Nat
  /-- The model's own: the inputs still to come, oldest first (notes/assumptions/1.md). -/
  inputs : List Input
  /-- The model's own: every output action produced so far, oldest first (notes/assumptions/2.md). -/
  outputs : List Action
  /-- The model's own: counts the draws of free values (notes/assumptions/6.md). -/
  freeCount : Nat
  deriving DecidableEq, Repr

/-- The configuration object before the host has written it. DESIGN CHOICE (notes/assumptions/3.md): the
spec gives no value for any field. -/
def unwrittenCfg : Cfg where
  refBlob := []
  handshakeBaud := 0
  productionBaud := 0
  hsAttempts := 0
  settleDelay := 0
  keepaliveInterval := 0
  minQuerySpacing := 0
  readTimeout := 0
  sysAck := 0
  sysKeepalive := 0
  extLo := 0
  extHi := 0

/-- The machine right after reset (10_state.md R55, 70_reset_and_hazards.md R381). The registers R55 calls
unspecified hold zero: DESIGN CHOICE (notes/assumptions/5.md). -/
def State.reset : State where
  phase := .disconnected
  lastKeepaliveTime := 0
  lastQueryTime := 0
  multipartPending := false
  activeBaud := 0
  hsStep := .capture
  hsBuf := []
  hsLeft := 0
  settleDeadline := 0
  pendingQuery := none
  extHold := none
  rxHdr := 0
  rxSub := 0
  rxBuf := Vector.replicate 32 0
  rxLen := 0
  rxCnt := 0
  rxAcc := 0xFF
  rxPos := 0
  rxState := .idle
  cfg := unwrittenCfg
  tickNs := 1000000
  inputs := []
  outputs := []
  freeCount := 0

end Sys2Proof.Machine
end

