-- ==== Sys2Proof/Machine/Operands.lean ====
section
/-! DEFINITION. The operand forms: multi-byte fields of a payload, the text codec's decode side, the
version record, the mode set, the logical mode, and the shape of a frame record
(00_scope.md R14; 20_memory.md R65; 30_encoding.md R104; 42_info.md R174). -/

namespace Sys2Proof.Machine

/-! ### Multi-byte fields -/

/-- The value of a little-endian byte sequence (20_memory.md R65). -/
def leValue : List Byte → Nat
  | [] => 0
  | b :: bs => b.toNat + 256 * leValue bs

/-- The `n` low bytes of `v`, least significant first (20_memory.md R65). -/
def leBytes : Nat → Nat → List Byte
  | 0, _ => []
  | n + 1, v => BitVec.ofNat 8 v :: leBytes n (v / 256)

/-- `MemRead(i, n)`: `n` bytes of the payload at offset `i`, little-endian (00_scope.md R14). -/
def memRead (p : List Byte) (i n : Nat) : Nat := leValue ((p.drop i).take n)

/-- `MemWrite(i, n, v)`: the `n` low bytes of `v` at offset `i` of a payload under construction
(00_scope.md R14). -/
def memWrite (p : List Byte) (i n v : Nat) : List Byte := p.take i ++ leBytes n v ++ p.drop (i + n)

/-- `zeros(n)` (00_scope.md R13). -/
def zeros (n : Nat) : List Byte := List.replicate n 0

/-- The payload byte at offset `i`. -/
def byteAt (p : List Byte) (i : Nat) : Byte := p.getD i 0

/-! ### Logical mode -/

/-- `logical_mode = m + 8` if bit 5 of the subtype byte is set, else `m` (30_encoding.md R104). -/
def logicalMode (m : Field3) (plus8 : Bool) : LogicalMode :=
  if plus8 then m.setWidth 4 + 8 else m.setWidth 4

/-! ### Text (42_info.md R174) -/

/-- The text with its trailing zero bytes stripped (42_info.md R174). -/
def stripTrailingZeros (p : List Byte) : List Byte := (p.reverse.dropWhile (· == 0)).reverse

/-- `z`: the least offset among the first six that holds a zero byte (42_info.md R174). -/
def zeroInFirstSix (p : List Byte) : Option Nat := (p.take 6).findIdx? (· == 0)

/-- `decode_text`, shared by NAME and UNITS (42_info.md R174). -/
def decodeText (p : List Byte) : List Byte × Option (List Byte) :=
  match zeroInFirstSix p with
  | some z =>
    if 12 < p.length then (p.take z, some ((p.drop (z + 1)).take 6)) else (stripTrailingZeros p, none)
  | none => (stripTrailingZeros p, none)

/-! ### Ranges, versions, mode sets -/

/-- `decode_range`, shared by RAW, PCT and SI: two 32-bit patterns (42_info.md R178, R179). -/
def decodeRange (p : List Byte) : Option (BitVec 32 × BitVec 32) :=
  if p.length = 8 then some (BitVec.ofNat 32 (memRead p 0 4), BitVec.ofNat 32 (memRead p 4 4))
  else none

/-- `record(o)` of CMD.VERSION (41_cmd.md R155). -/
def versionRecord (p : List Byte) (o : Nat) : Version where
  major := (byteAt p (o + 3)).extractLsb' 4 4
  minor := (byteAt p (o + 3)).extractLsb' 0 4
  bugfix := byteAt p (o + 2)
  build := BitVec.ofNat 16 (memRead p o 2)

/-- The words of a MODE_COMBOS payload (42_info.md R192). -/
def comboWords (p : List Byte) : List (BitVec 16) :=
  (List.range (p.length / 2)).map fun i => BitVec.ofNat 16 (memRead p (2 * i) 2)

/-- The mode indices asserted in some word, ascending (42_info.md R192). -/
def assertedModes (words : List (BitVec 16)) : List LogicalMode :=
  ((List.range 16).filter fun k => words.any fun w => w.getLsbD k).map (BitVec.ofNat 4)

/-! ### Frame records (10_state.md R34, 44_frame_decoder.md R222) -/

/-- The record of a SYS byte (40_sys.md R131). -/
def sysFrame (sizeBits code : Field3) : Frame where
  hdr := headerByte .sys sizeBits code
  cat := .sys
  sizeBits := sizeBits
  code := code
  subRaw := none
  mode := none
  payload := []
  chkRx := none
  chkCalc := none
  chkFault := false
  msg := .sys code sizeBits

/-- The record of a CMD frame; `acc` is the computed checksum (44_frame_decoder.md R222). -/
def cmdFrame (cmd sc : Field3) (p : List Byte) (chk acc : Byte) (msg : Msg) : Frame where
  hdr := headerByte .cmd sc cmd
  cat := .cmd
  sizeBits := sc
  code := cmd
  subRaw := none
  mode := none
  payload := p
  chkRx := some chk
  chkCalc := some acc
  chkFault := chk != acc
  msg := msg

/-- The record of an INFO frame (44_frame_decoder.md R222). -/
def infoFrame (id : Byte) (sc wire : Field3) (plus8 : Bool) (p : List Byte) (chk acc : Byte)
    (msg : Msg) : Frame where
  hdr := headerByte .info sc wire
  cat := .info
  sizeBits := sc
  code := wire
  subRaw := some (subtypeByte id plus8)
  mode := some (logicalMode wire plus8)
  payload := p
  chkRx := some chk
  chkCalc := some acc
  chkFault := chk != acc
  msg := msg

/-- The record of a DATA frame (44_frame_decoder.md R222). -/
def dataFrame (sc wire : Field3) (p : List Byte) (chk acc : Byte) (msg : Msg) : Frame where
  hdr := headerByte .data sc wire
  cat := .data
  sizeBits := sc
  code := wire
  subRaw := none
  mode := some (wire.setWidth 4)
  payload := p
  chkRx := some chk
  chkCalc := some acc
  chkFault := chk != acc
  msg := msg

end Sys2Proof.Machine
end

