-- ==== Sys2Proof/Machine/Flags.lean ====
section
/-! DEFINITION. The checksum and every flag the spec computes (30_encoding.md R108; 10_state.md R28;
42_info.md R187, R188, R196). -/

namespace Sys2Proof.Machine

/-- `checksum(bytes)`: fold exclusive-or from the seed `0xFF` (30_encoding.md R108). -/
def checksum (bs : List Byte) : Byte := bs.foldl (· ^^^ ·) 0xFF#8

/-! ### FORMAT (42_info.md R196) -/

/-- `size_of(data_format)` in bytes, for the four formats (42_info.md R196). -/
def sizeOfFormat (f : Byte) : Nat :=
  match f.toNat with
  | 0 => 1
  | 1 => 2
  | _ => 4

/-- `format_flags`: `(size_violation, format_reserved)` (42_info.md R196). -/
def formatFlags (dataSets dataFormat : Byte) : Bool × Bool :=
  if 3 < dataFormat.toNat then (false, true)
  else (decide (32 < dataSets.toNat * sizeOfFormat dataFormat), false)

/-! ### NAME and UNITS -/

/-- `flags_present`: a flags suffix was recognised (10_state.md R28). -/
def flagsPresent : Msg → Bool
  | .infoName _ _ flags => flags.isSome
  | .infoUnits _ _ flags => flags.isSome
  | _ => false

/-! ### MAPPING (42_info.md R187, R188) -/

/-- The six named bits, from bit 7 down (42_info.md R187). -/
def mappingNames : List (Nat × MappingName) :=
  [(7, .null), (6, .funcMapping2), (4, .absolute), (3, .relative), (2, .discrete), (0, .notApplicable)]

/-- The weight of a name; none for a name outside the table (42_info.md R187). -/
def nameWeight : MappingName → Option Byte
  | .null => some 0x80
  | .funcMapping2 => some 0x40
  | .absolute => some 0x10
  | .relative => some 0x08
  | .discrete => some 0x04
  | .notApplicable => some 0x01
  | .other _ => none

/-- `names_of(b)`: the names of the named bits set in `b` (42_info.md R187). -/
def namesOf (b : Byte) : List MappingName :=
  (mappingNames.filter fun x => b.getLsbD x.1).map (·.2)

/-- Every name of the set is in the table and every byte value is one byte (42_info.md R188,
45_tx_encoder.md R252). -/
def flagArgInRange : FlagArg → Bool
  | .byteValue v => decide (v < 256)
  | .names ns => ns.all fun n => (nameWeight n).isSome

/-- `flag_byte(x)`: the byte, and whether the ambiguous name was used (42_info.md R188). -/
def flagByte : FlagArg → Byte × Bool
  | .byteValue v => (BitVec.ofNat 8 v, false)
  | .names ns =>
    (ns.foldl (fun b n => b ||| (nameWeight n).getD 0#8) 0#8, ns.contains .notApplicable)

/-! ### Conditions -/

/-- The classes of conditions (60_exceptions.md R332). -/
inductive ConditionClass where
  | fatal | fault | reject | pureResult
  deriving DecidableEq, Repr

/-- The class of each condition (60_exceptions.md R332). -/
def classOf : Condition → ConditionClass
  | .deviceNotFound => .fatal
  | .peerDisconnect => .fatal
  | .transportClosed => .fatal
  | .reservedSizeClass _ => .fatal
  | .truncated => .pureResult
  | .checksumFault _ _ => .fault
  | .handshakeMismatch _ => .fault
  | .fieldOutOfRange => .reject
  | .missingFlagField => .reject
  | .textTooLong => .reject
  | .sizeOutOfRange _ => .reject
  | .queryBusy => .reject
  | .notActive => .reject
  | .alreadyStarted => .reject

end Sys2Proof.Machine
end

