-- ==== Sys2Proof/Machine/Builder.lean ====
section
/-! DEFINITION. The transmit path's header encoder and frame builder (30_encoding.md R98 to R102;
45_tx_encoder.md R250 to R262). Pure: nothing is emitted when a condition is raised. -/

namespace Sys2Proof.Machine

/-- `require ok c k`: raise `c` unless `ok`, else go on with `k` (45_tx_encoder.md R252). -/
def require (ok : Bool) (c : Condition) {α : Type} (k : Except Condition α) : Except Condition α :=
  if ok then k else .error c

/-- The least size class whose payload length is at least `req` (30_encoding.md R98). -/
def leastSizeClass (req : Nat) : Option Field3 :=
  [0, 1, 2, 3, 4, 5].find? fun sc : Field3 => decide (req ≤ 2 ^ sc.toNat)

/-- The total size the header decoder gives a candidate header (30_encoding.md R96, R98). -/
def decodedTotal (h : Byte) : Nat :=
  match decodeHeader h with
  | .sys _ => 1
  | .reserved _ _ _ => 0
  | .frame _ _ total => total

/-- The upward search of `encode_header`: the test compares with the original length `len`, only the
search key `req` grows (30_encoding.md R98). `fuel` bounds the growth: `req` never passes 32. -/
def headerSearch (cat : Category) (m : Field3) (len : Nat) : (fuel req : Nat) → Option Byte
  | 0, _ => none
  | fuel + 1, req =>
    match leastSizeClass req with
    | none => none
    | some sc =>
      let h := headerByte cat sc m
      if len + overhead cat ≤ decodedTotal h then some h
      else headerSearch cat m len fuel (req + 1)

/-- `encode_header(cat, m, L)` (30_encoding.md R98, R100, R101). -/
def encodeHeader (cat : Category) (m len : Nat) : Except Condition Byte :=
  require (decide (m ≤ 7) && cat != .sys) .fieldOutOfRange <|
  require (decide (1 ≤ len) && decide (len ≤ 32)) (.sizeOutOfRange len) <|
  match headerSearch cat (BitVec.ofNat 3 m) len 33 len with
  | some h => .ok h
  | none => .error (.sizeOutOfRange len)

/-- The header fields a frame is built with: the command, the logical mode and subtype id, or the wire
mode (45_tx_encoder.md R257, R258). -/
inductive FrameTarget where
  | cmd (code : Nat)
  | info (mode : Nat) (subtypeId : Byte)
  | data (mode : Nat)
  deriving DecidableEq, Repr

/-- The category of a target. -/
def FrameTarget.cat : FrameTarget → Category
  | .cmd _ => .cmd
  | .info _ _ => .info
  | .data _ => .data

/-- The eight subtype ids of 30_encoding.md R107. -/
def knownSubtypeId (id : Byte) : Bool := decide (id.toNat ≤ 6) || id == 0x80#8

/-- The range checks made before `encode_header` (45_tx_encoder.md R252, R257). -/
def targetInRange : FrameTarget → Bool
  | .cmd code => decide (code ≤ 7)
  | .info mode id => decide (mode ≤ 15) && knownSubtypeId id
  | .data mode => decide (mode ≤ 7)

/-- The 3-bit header field of a target: `mode - 8` for a logical mode of 8 or more (30_encoding.md
R105). -/
def wireField : FrameTarget → Nat
  | .cmd code => code
  | .info mode _ => if 8 ≤ mode then mode - 8 else mode
  | .data mode => mode

/-- The subtype byte of a target, if it has one (30_encoding.md R105, 45_tx_encoder.md R258). -/
def subBytes : FrameTarget → List Byte
  | .info mode id => [subtypeByte id (decide (8 ≤ mode))]
  | _ => []

/-- The zero padding up to the size class the header names (30_encoding.md R102). -/
def padTo (h : Byte) (payload : List Byte) : List Byte :=
  payload ++ zeros (2 ^ (sizeField h).toNat - payload.length)

/-- `build_frame` (45_tx_encoder.md R258). -/
def buildFrame (t : FrameTarget) (payload : List Byte) : Except Condition (List Byte) :=
  require (targetInRange t) .fieldOutOfRange <|
  match encodeHeader t.cat (wireField t) payload.length with
  | .error c => .error c
  | .ok h =>
    let body := h :: (subBytes t ++ padTo h payload)
    .ok (body ++ [checksum body])

/-- A build without warnings. -/
def buildPlain (t : FrameTarget) (payload : List Byte) : Except Condition Built :=
  match buildFrame t payload with
  | .error c => .error c
  | .ok bs => .ok { bytes := bs }

/-! ### The text encoder (42_info.md R173) -/

/-- Every text byte is ASCII and not zero (42_info.md R173). -/
def textInRange (text : List Byte) : Bool := text.all fun b => b != 0 && decide (b.toNat ≤ 0x7F)

/-- `encode_text` (42_info.md R173). -/
def encodeText (text : List Byte) (flags : Option (List Byte)) : Except Condition (List Byte) :=
  require (textInRange text) .fieldOutOfRange <|
  match flags with
  | none =>
    require (decide (text.length < 12)) .textTooLong <|
    .ok (if text.isEmpty then [0] else text)
  | some fl =>
    require (fl.length == 6) .missingFlagField <|
    require (decide (text.length < 6)) .textTooLong <|
    .ok (text ++ [0] ++ fl)

/-- NAME and UNITS: one global order of tests, the mode's range among the first (45_tx_encoder.md R252;
notes/assumptions/12.md). -/
def buildText (id : Byte) (mode : Nat) (text : List Byte) (flags : Option (List Byte)) :
    Except Condition Built :=
  require (decide (mode ≤ 15)) .fieldOutOfRange <|
  match encodeText text flags with
  | .error c => .error c
  | .ok payload => buildPlain (.info mode id) payload

/-- RAW, PCT and SI: two 32-bit patterns (42_info.md R181). -/
def buildRange (id : Byte) (mode : Nat) (min max : BitVec 32) : Except Condition Built :=
  buildPlain (.info mode id) (memWrite (memWrite (zeros 8) 0 4 min.toNat) 4 4 max.toNat)

/-- `build_sys(b)` (40_sys.md R133). -/
def buildSysByte (b : Nat) : Except Condition (List Byte) :=
  require (decide (b < 64)) .fieldOutOfRange (.ok [BitVec.ofNat 8 b])

/-- `build_write2(mode, raw)`: the EXT_MODE frame and the DATA frame as one write group
(45_tx_encoder.md R262). -/
def buildWrite2 (cfg : Cfg) (mode : Nat) (raw : List Byte) : Except Condition (List Byte) :=
  require (decide (mode ≤ 15)) .fieldOutOfRange <|
  match buildFrame (.cmd 6) [if 8 ≤ mode then cfg.extHi else cfg.extLo] with
  | .error c => .error c
  | .ok f1 =>
    match buildFrame (.data (mode % 8)) raw with
    | .error c => .error c
    | .ok f2 => .ok (f1 ++ f2)

end Sys2Proof.Machine
end

