-- ==== Sys2Proof/Machine/Ops.lean ====
section
/-! DEFINITION. The named operations over the state: outputs, reset, fatal entry (the block's exception
entry) and the way back, the handshake, the frame decoder's register writes, report, hold and deliver,
and the scheduler (10_state.md R52 to R56; 44_frame_decoder.md R225 to R230; 46_session.md R283 to R303;
60_exceptions.md R350). -/

namespace Sys2Proof.Machine

/-- The outcome of a step of this machine. -/
abbrev Result := Host.Outcome State Fault Refusal

/-! ### Outputs and time -/

/-- `out a`: append an output action (00_scope.md R13, 10_state.md R52). -/
def emit (a : Action) (s : State) : State := { s with outputs := s.outputs ++ [a] }

/-- `elapsed(t)`: 0 when time has gone backwards (00_scope.md R9). -/
def elapsed (now t : Nat) : Nat := now - t

/-! ### The configuration object -/

/-- 200 ms in nanoseconds, the bound of the keep-alive interval (10_state.md R25). -/
def keepaliveBoundNs : Nat := 200000000

/-- The category field of a byte is that of a SYS byte (40_sys.md R130). -/
def isSysByte (b : Byte) : Bool := categoryOf b == .sys

/-- A configuration is well-formed (10_state.md R25); `tickNs` is the length of a tick. -/
def cfgWellFormed (tickNs : Nat) (c : Cfg) : Bool :=
  decide (1 ≤ c.refBlob.length) && decide (1 ≤ c.hsAttempts) &&
  decide (c.keepaliveInterval * tickNs ≤ keepaliveBoundNs) &&
  isSysByte c.sysAck && isSysByte c.sysKeepalive

/-! ### Reset -/

/-- `EvReset`: the values of 10_state.md R55, no output (70_reset_and_hazards.md R381). The registers R55
calls unspecified get free values (notes/assumptions/6.md); `cfg` is not touched. -/
def resetRegisters (s : State) : State :=
  { s with
    phase := .disconnected
    multipartPending := false
    pendingQuery := none
    extHold := none
    hsStep := .capture
    hsBuf := []
    hsLeft := 0
    rxState := .idle
    rxPos := 0
    rxCnt := 0
    rxAcc := 0xFF
    lastKeepaliveTime := Config.freeLastKeepaliveTime s.freeCount
    lastQueryTime := Config.freeLastQueryTime s.freeCount
    settleDeadline := Config.freeSettleDeadline s.freeCount
    activeBaud := Config.freeActiveBaud s.freeCount
    rxHdr := Config.freeRxHdr s.freeCount
    rxSub := Config.freeRxSub s.freeCount
    rxLen := Config.freeRxLen s.freeCount
    rxBuf := Config.freeRxBuf s.freeCount
    freeCount := s.freeCount + 1 }

/-! ### Fatal entry and the way back -/

/-- The register writes of an entry to `Disconnected` (10_state.md R56): those of a reset, except
`rx_pos`, the three time registers and `active_baud`, which keep their values. The frame registers are
unspecified again (notes/assumptions/7.md). -/
def enterDisconnected (s : State) : State :=
  { s with
    phase := .disconnected
    multipartPending := false
    pendingQuery := none
    extHold := none
    hsStep := .capture
    hsBuf := []
    hsLeft := 0
    rxState := .idle
    rxCnt := 0
    rxAcc := 0xFF
    rxHdr := Config.freeRxHdr s.freeCount
    rxSub := Config.freeRxSub s.freeCount
    rxLen := Config.freeRxLen s.freeCount
    rxBuf := Config.freeRxBuf s.freeCount
    freeCount := s.freeCount + 1 }

/-- The actions of a fatal condition: the report, and `CloseTransport` unless the transport is what
closed (60_exceptions.md R350). -/
def fatalActions (c : Condition) : List Action :=
  if c = .transportClosed then [.report c] else [.report c, .closeTransport]

/-- `Fatal(c)`: the block's exception entry (60_exceptions.md R350). -/
def fatal (c : Condition) (s : State) : State :=
  enterDisconnected { s with outputs := s.outputs ++ fatalActions c }

/-- `EvStart` in `Disconnected`: the only way out of it (46_session.md R283, 60_exceptions.md R355). An
ill-formed configuration is refused (10_state.md R25; notes/assumptions/10.md). -/
def startSession (s : State) : Result :=
  if cfgWellFormed s.tickNs s.cfg then
    .next (emit (.openTransport s.cfg.handshakeBaud)
      { s with
        activeBaud := s.cfg.handshakeBaud
        hsLeft := s.cfg.hsAttempts
        hsBuf := []
        hsStep := .capture
        phase := .handshaking })
  else .refused .illFormedConfig

/-! ### Handshake -/

/-- `HsFail()` (46_session.md R288). -/
def hsFail (s : State) : State :=
  let left := s.hsLeft - 1
  let s1 := { s with hsLeft := left, hsBuf := [] }
  if 0 < left then emit (.report (.handshakeMismatch left)) s1 else fatal .deviceNotFound s1

/-- `Match(now)`: send the ACK and begin the settle delay (46_session.md R290). -/
def blobMatched (now : Nat) (s : State) : State :=
  emit (.tx [s.cfg.sysAck])
    { s with hsBuf := [], hsStep := .settle, settleDeadline := now + s.cfg.settleDelay }

/-- A byte captured in `Capture`; the verdict is given at the last byte (46_session.md R286). -/
def capture (b : Byte) (now : Nat) (s : State) : State :=
  let s1 := { s with hsBuf := s.hsBuf ++ [b] }
  if s1.hsBuf.length = s.cfg.refBlob.length then
    if s1.hsBuf = s.cfg.refBlob then blobMatched now s1 else hsFail s1
  else s1

/-- `FsReset()` (44_frame_decoder.md R225). -/
def fsReset (s : State) : State := { s with rxState := .idle, rxPos := 0, rxCnt := 0, rxAcc := 0xFF }

/-- `Activate(now)` (46_session.md R293). -/
def activate (now : Nat) (s : State) : State :=
  fsReset (emit (.setBaud s.cfg.productionBaud)
    { s with
      activeBaud := s.cfg.productionBaud
      multipartPending := false
      extHold := none
      pendingQuery := none
      lastKeepaliveTime := now
      lastQueryTime := now
      phase := .active })

/-- The settle test at the head of a step (46_session.md R282, R292). -/
def settleTest (now : Nat) (s : State) : State :=
  if s.phase = .handshaking ∧ s.hsStep = .settle ∧ s.settleDeadline ≤ now then activate now s else s

/-! ### A completed frame -/

/-- The report of a checksum fault, before any delivery (46_session.md R297). -/
def reportChecksum (f : Frame) (s : State) : State :=
  match f.chkFault, f.chkRx, f.chkCalc with
  | true, some rx, some computed => emit (.report (.checksumFault rx computed)) s
  | _, _, _ => s

/-- An EXT_MODE frame: category CMD and command 6, any size class, any payload (41_cmd.md R153). -/
def isExtMode (f : Frame) : Bool := f.cat == .cmd && f.code == 6

/-- `OnFrame(f)`: hold or deliver (46_session.md R298). -/
def onFrame (f : Frame) (s : State) : State :=
  if s.extHold = none ∧ isExtMode f = true then
    { s with extHold := some f, multipartPending := true }
  else
    { emit (.deliver ⟨f, s.extHold⟩) s with extHold := none, multipartPending := false }

/-- What the session engine does with a completed frame (46_session.md R295). Every message kind
completes with it. -/
def receive (f : Frame) (s : State) : Result := .next (onFrame f (reportChecksum f s))

/-! ### The scheduler -/

/-- `KeepAlive(now)` (46_session.md R302). -/
def keepAlive (now : Nat) (s : State) : State :=
  if s.cfg.keepaliveInterval ≤ elapsed now s.lastKeepaliveTime then
    { emit (.tx [s.cfg.sysKeepalive]) s with lastKeepaliveTime := now }
  else s

/-- `SendQuery(now)` (46_session.md R303). -/
def sendQuery (now : Nat) (s : State) : State :=
  match s.pendingQuery with
  | none => s
  | some q =>
    if s.multipartPending = false ∧ s.cfg.minQuerySpacing ≤ elapsed now s.lastQueryTime then
      { emit (.tx q.bytes) s with
        lastQueryTime := now
        pendingQuery := none
        multipartPending := q.multipart }
    else s

/-- `Sched(now)`: keep-alive first, then the query (46_session.md R301). -/
def sched (now : Nat) (s : State) : State := sendQuery now (keepAlive now s)

/-! ### The frame decoder's register writes -/

/-- `rx_pos <- rx_pos + 1`, the first write of every case of `FsByte` (44_frame_decoder.md R225). -/
def takeByte (s : State) : State := { s with rxPos := s.rxPos + 1 }

/-- The header byte of a CMD, INFO or DATA frame (44_frame_decoder.md R226). -/
def latchHeader (b : Byte) (s : State) : State :=
  { s with
    rxHdr := b
    rxAcc := 0xFF#8 ^^^ b
    rxLen := 1#6 <<< (sizeField b).toNat
    rxCnt := 0
    rxState := if categoryOf b = .info then .sub else .pay }

/-- The INFO subtype byte (44_frame_decoder.md R227). -/
def latchSubtype (b : Byte) (s : State) : State :=
  { s with rxSub := b, rxAcc := s.rxAcc ^^^ b, rxState := .pay }

/-- A payload byte (44_frame_decoder.md R228). -/
def latchPayload (b : Byte) (s : State) : State :=
  { s with
    rxBuf := s.rxBuf.setIfInBounds s.rxCnt.toNat b
    rxCnt := s.rxCnt + 1
    rxAcc := s.rxAcc ^^^ b
    rxState := if s.rxCnt + 1 = s.rxLen then .chk else .pay }

/-- The payload registers in use: `x[0 .. rx_len-1]` (44_frame_decoder.md R229). -/
def State.payload (s : State) : List Byte := s.rxBuf.toList.take s.rxLen.toNat

/-- The bytes of the frame that byte `b` would complete: `b` alone at a frame boundary; header, subtype
byte, payload and `b` at the checksum (44_frame_decoder.md R226, R229). -/
def State.frameBytes (s : State) (b : Byte) : List Byte :=
  match s.rxState with
  | .chk =>
    (if categoryOf s.rxHdr = .info then RawFrame.withSub s.rxHdr s.rxSub s.payload b
     else RawFrame.plain s.rxHdr s.payload b).bytes
  | _ => [b]

end Sys2Proof.Machine
end

