-- ==== Sys2Proof/Machine/Cmd.lean ====
section
/-! DEFINITION. The eight CMD messages, decode and encode (41_cmd.md). Each `exec` is the completion of
a received frame of its kind; `s.rxAcc` is the checksum computed over the bytes before the checksum byte
(44_frame_decoder.md R229). -/

namespace Sys2Proof.Machine

/-! ### CMD.TYPE -/

/-- CMD.TYPE, decode: one device-type id (41_cmd.md R141). -/
def decodeCmdType (p : List Byte) : Msg :=
  if p.length = 1 then .cmdType (byteAt p 0) else .malformed .cmdType p

/-- CMD.TYPE received (41_cmd.md R141). -/
def execCmdType (sc : Field3) (p : List Byte) (chk : Byte) (s : State) : Result :=
  receive (cmdFrame 0 sc p chk s.rxAcc (decodeCmdType p)) s

/-- CMD.TYPE, encode (41_cmd.md R142). -/
def buildCmdType (typeId : Nat) : Except Condition Built :=
  require (decide (typeId ≤ 255)) .fieldOutOfRange (buildPlain (.cmd 0) [BitVec.ofNat 8 typeId])

/-! ### CMD.MODES -/

/-- CMD.MODES, decode: 1, 2 or 4 counts, each byte plus one in 9 bits (41_cmd.md R143). -/
def decodeCmdModes (p : List Byte) : Msg :=
  if p.length = 1 ∨ p.length = 2 ∨ p.length = 4 then .cmdModes (p.map fun b => b.setWidth 9 + 1)
  else .malformed .cmdModes p

/-- CMD.MODES received (41_cmd.md R143). -/
def execCmdModes (sc : Field3) (p : List Byte) (chk : Byte) (s : State) : Result :=
  receive (cmdFrame 1 sc p chk s.rxAcc (decodeCmdModes p)) s

/-- CMD.MODES, encode: 1 to 4 counts, each 1 to 256 (41_cmd.md R144). -/
def buildCmdModes (counts : List Nat) : Except Condition Built :=
  require (decide (1 ≤ counts.length) && decide (counts.length ≤ 4) &&
      counts.all fun c => decide (1 ≤ c) && decide (c ≤ 256)) .fieldOutOfRange
    (buildPlain (.cmd 1) (counts.map fun c => BitVec.ofNat 8 (c - 1)))

/-! ### CMD.SPEED -/

/-- CMD.SPEED, decode: a 32-bit baud rate, which does not touch `active_baud` (41_cmd.md R145). -/
def decodeCmdSpeed (p : List Byte) : Msg :=
  if p.length = 4 then .cmdSpeed (BitVec.ofNat 32 (memRead p 0 4)) else .malformed .cmdSpeed p

/-- CMD.SPEED received (41_cmd.md R145). -/
def execCmdSpeed (sc : Field3) (p : List Byte) (chk : Byte) (s : State) : Result :=
  receive (cmdFrame 2 sc p chk s.rxAcc (decodeCmdSpeed p)) s

/-- CMD.SPEED, encode (41_cmd.md R146). -/
def buildCmdSpeed (baud : Nat) : Except Condition Built :=
  require (decide (baud < 2 ^ 32)) .fieldOutOfRange
    (buildPlain (.cmd 2) (memWrite (zeros 4) 0 4 baud))

/-! ### CMD.SELECT -/

/-- CMD.SELECT, decode: the payload uninterpreted (41_cmd.md R147). -/
def decodeCmdSelect (p : List Byte) : Msg := .cmdSelect p

/-- CMD.SELECT received (41_cmd.md R147). -/
def execCmdSelect (sc : Field3) (p : List Byte) (chk : Byte) (s : State) : Result :=
  receive (cmdFrame 3 sc p chk s.rxAcc (decodeCmdSelect p)) s

/-- CMD.SELECT, encode (41_cmd.md R148). -/
def buildCmdSelect (raw : List Byte) : Except Condition Built := buildPlain (.cmd 3) raw

/-! ### CMD.WRITE -/

/-- CMD.WRITE, decode: the payload uninterpreted (41_cmd.md R149). -/
def decodeCmdWrite (p : List Byte) : Msg := .cmdWrite p

/-- CMD.WRITE received (41_cmd.md R149). -/
def execCmdWrite (sc : Field3) (p : List Byte) (chk : Byte) (s : State) : Result :=
  receive (cmdFrame 4 sc p chk s.rxAcc (decodeCmdWrite p)) s

/-- CMD.WRITE, encode (41_cmd.md R150). -/
def buildCmdWrite (raw : List Byte) : Except Condition Built := buildPlain (.cmd 4) raw

/-! ### CMD.UNK1 -/

/-- CMD.UNK1, decode: a known command with an unknown meaning, the payload uninterpreted (41_cmd.md
R151). -/
def decodeCmdUnk1 (p : List Byte) : Msg := .cmdUnk1 p

/-- CMD.UNK1 received (41_cmd.md R151). -/
def execCmdUnk1 (sc : Field3) (p : List Byte) (chk : Byte) (s : State) : Result :=
  receive (cmdFrame 5 sc p chk s.rxAcc (decodeCmdUnk1 p)) s

/-- CMD.UNK1, encode (41_cmd.md R152). -/
def buildCmdUnk1 (raw : List Byte) : Except Condition Built := buildPlain (.cmd 5) raw

/-! ### CMD.EXT_MODE -/

/-- CMD.EXT_MODE, decode: the payload uninterpreted (41_cmd.md R153). -/
def decodeCmdExtMode (p : List Byte) : Msg := .cmdExtMode p

/-- CMD.EXT_MODE received: held for its companion, or delivered as one (41_cmd.md R153, 46_session.md
R298). -/
def execCmdExtMode (sc : Field3) (p : List Byte) (chk : Byte) (s : State) : Result :=
  receive (cmdFrame 6 sc p chk s.rxAcc (decodeCmdExtMode p)) s

/-- CMD.EXT_MODE, encode (41_cmd.md R154). -/
def buildCmdExtMode (raw : List Byte) : Except Condition Built := buildPlain (.cmd 6) raw

/-! ### CMD.VERSION -/

/-- CMD.VERSION, decode: two version records (41_cmd.md R155). -/
def decodeCmdVersion (p : List Byte) : Msg :=
  if p.length = 8 then .cmdVersion (versionRecord p 0) (versionRecord p 4)
  else .malformed .cmdVersion p

/-- CMD.VERSION received (41_cmd.md R155). -/
def execCmdVersion (sc : Field3) (p : List Byte) (chk : Byte) (s : State) : Result :=
  receive (cmdFrame 7 sc p chk s.rxAcc (decodeCmdVersion p)) s

/-- Every field of a version record is in its range (41_cmd.md R156). -/
def versionInRange (v : VersionSpec) : Bool :=
  decide (v.major ≤ 15) && decide (v.minor ≤ 15) && decide (v.bugfix ≤ 255) &&
  decide (v.build ≤ 65535)

/-- The four bytes of a version record (41_cmd.md R155, R156). -/
def versionBytes (v : VersionSpec) : List Byte :=
  memWrite (zeros 2) 0 2 v.build ++ [BitVec.ofNat 8 v.bugfix, BitVec.ofNat 8 (v.major <<< 4 ||| v.minor)]

/-- CMD.VERSION, encode (41_cmd.md R156). -/
def buildCmdVersion (fw hw : VersionSpec) : Except Condition Built :=
  require (versionInRange fw && versionInRange hw) .fieldOutOfRange
    (buildPlain (.cmd 7) (versionBytes fw ++ versionBytes hw))

end Sys2Proof.Machine
end

