-- ==== Sys2Proof/Machine/Data.lean ====
section
/-! DEFINITION. The DATA message, decode and encode (43_data.md). -/

namespace Sys2Proof.Machine

/-- DATA, decode: the wire mode and the payload uninterpreted (43_data.md R211). -/
def decodeData (wire : Field3) (p : List Byte) : Msg := .data wire p

/-- DATA received (43_data.md R211). -/
def execData (sc wire : Field3) (p : List Byte) (chk : Byte) (s : State) : Result :=
  receive (dataFrame sc wire p chk s.rxAcc (decodeData wire p)) s

/-- DATA, encode, single frame (43_data.md R212). -/
def buildData (mode : Nat) (raw : List Byte) : Except Condition Built := buildPlain (.data mode) raw

end Sys2Proof.Machine
end

