-- ==== Sys2Proof/Machine/Info.lean ====
section
/-! DEFINITION. The eight INFO messages and the unknown subtypes, decode and encode (42_info.md). Each
`exec` is the completion of a received frame of its kind. -/

namespace Sys2Proof.Machine

/-! ### INFO.NAME -/

/-- INFO.NAME, decode (42_info.md R172). -/
def decodeInfoName (mode : LogicalMode) (p : List Byte) : Msg :=
  .infoName mode (decodeText p).1 (decodeText p).2

/-- INFO.NAME received (42_info.md R172). -/
def execInfoName (sc wire : Field3) (plus8 : Bool) (p : List Byte) (chk : Byte) (s : State) : Result :=
  receive (infoFrame 0x00 sc wire plus8 p chk s.rxAcc (decodeInfoName (logicalMode wire plus8) p)) s

/-- INFO.NAME, encode (42_info.md R173). -/
def buildInfoName (mode : Nat) (text : List Byte) (flags : Option (List Byte)) :
    Except Condition Built := buildText 0x00 mode text flags

/-! ### INFO.RAW, INFO.PCT, INFO.SI -/

/-- INFO.RAW, decode (42_info.md R178). -/
def decodeInfoRaw (mode : LogicalMode) (p : List Byte) : Msg :=
  match decodeRange p with
  | some (min, max) => .infoRaw mode min max
  | none => .malformed .infoRaw p

/-- INFO.RAW received (42_info.md R178). -/
def execInfoRaw (sc wire : Field3) (plus8 : Bool) (p : List Byte) (chk : Byte) (s : State) : Result :=
  receive (infoFrame 0x01 sc wire plus8 p chk s.rxAcc (decodeInfoRaw (logicalMode wire plus8) p)) s

/-- INFO.RAW, encode (42_info.md R181). -/
def buildInfoRaw (mode : Nat) (min max : BitVec 32) : Except Condition Built :=
  buildRange 0x01 mode min max

/-- INFO.PCT, decode: the structure of RAW (42_info.md R180). -/
def decodeInfoPct (mode : LogicalMode) (p : List Byte) : Msg :=
  match decodeRange p with
  | some (min, max) => .infoPct mode min max
  | none => .malformed .infoPct p

/-- INFO.PCT received (42_info.md R180). -/
def execInfoPct (sc wire : Field3) (plus8 : Bool) (p : List Byte) (chk : Byte) (s : State) : Result :=
  receive (infoFrame 0x02 sc wire plus8 p chk s.rxAcc (decodeInfoPct (logicalMode wire plus8) p)) s

/-- INFO.PCT, encode (42_info.md R181). -/
def buildInfoPct (mode : Nat) (min max : BitVec 32) : Except Condition Built :=
  buildRange 0x02 mode min max

/-- INFO.SI, decode: the structure of RAW (42_info.md R182). -/
def decodeInfoSi (mode : LogicalMode) (p : List Byte) : Msg :=
  match decodeRange p with
  | some (min, max) => .infoSi mode min max
  | none => .malformed .infoSi p

/-- INFO.SI received (42_info.md R182). -/
def execInfoSi (sc wire : Field3) (plus8 : Bool) (p : List Byte) (chk : Byte) (s : State) : Result :=
  receive (infoFrame 0x03 sc wire plus8 p chk s.rxAcc (decodeInfoSi (logicalMode wire plus8) p)) s

/-- INFO.SI, encode (42_info.md R181). -/
def buildInfoSi (mode : Nat) (min max : BitVec 32) : Except Condition Built :=
  buildRange 0x03 mode min max

/-! ### INFO.UNITS -/

/-- INFO.UNITS, decode: the codec of NAME (42_info.md R184). -/
def decodeInfoUnits (mode : LogicalMode) (p : List Byte) : Msg :=
  .infoUnits mode (decodeText p).1 (decodeText p).2

/-- INFO.UNITS received (42_info.md R184). -/
def execInfoUnits (sc wire : Field3) (plus8 : Bool) (p : List Byte) (chk : Byte) (s : State) : Result :=
  receive (infoFrame 0x04 sc wire plus8 p chk s.rxAcc (decodeInfoUnits (logicalMode wire plus8) p)) s

/-- INFO.UNITS, encode (42_info.md R185). -/
def buildInfoUnits (mode : Nat) (text : List Byte) (flags : Option (List Byte)) :
    Except Condition Built := buildText 0x04 mode text flags

/-! ### INFO.MAPPING -/

/-- INFO.MAPPING, decode: two flag bytes, every bit kept (42_info.md R186). -/
def decodeInfoMapping (mode : LogicalMode) (p : List Byte) : Msg :=
  if p.length = 2 then .infoMapping mode (byteAt p 0) (byteAt p 1) else .malformed .infoMapping p

/-- INFO.MAPPING received (42_info.md R186). -/
def execInfoMapping (sc wire : Field3) (plus8 : Bool) (p : List Byte) (chk : Byte) (s : State) :
    Result :=
  receive (infoFrame 0x05 sc wire plus8 p chk s.rxAcc (decodeInfoMapping (logicalMode wire plus8) p)) s

/-- An operand of MAPPING that is present is in range (45_tx_encoder.md R252). -/
def optionalFlagInRange : Option FlagArg → Bool
  | none => true
  | some x => flagArgInRange x

/-- INFO.MAPPING, encode, with the ambiguous-name warning (42_info.md R188). Range tests come before the
test for a missing operand (45_tx_encoder.md R252; notes/assumptions/12.md). -/
def buildInfoMapping (mode : Nat) (input output : Option FlagArg) : Except Condition Built :=
  require (decide (mode ≤ 15) && optionalFlagInRange input && optionalFlagInRange output)
    .fieldOutOfRange <|
  match input, output with
  | some i, some o =>
    match buildFrame (.info mode 0x05) [(flagByte i).1, (flagByte o).1] with
    | .error c => .error c
    | .ok bs => .ok { bytes := bs, ambiguousName := (flagByte i).2 || (flagByte o).2 }
  | _, _ => .error .missingFlagField

/-! ### INFO.MODE_COMBOS -/

/-- INFO.MODE_COMBOS, decode: the words and the set of asserted modes (42_info.md R192). -/
def decodeInfoModeCombos (mode : LogicalMode) (p : List Byte) : Msg :=
  if p.length = 1 then .malformed .infoModeCombos p
  else .infoModeCombos mode (comboWords p) (assertedModes (comboWords p))

/-- INFO.MODE_COMBOS received (42_info.md R192). -/
def execInfoModeCombos (sc wire : Field3) (plus8 : Bool) (p : List Byte) (chk : Byte) (s : State) :
    Result :=
  receive (infoFrame 0x06 sc wire plus8 p chk s.rxAcc
    (decodeInfoModeCombos (logicalMode wire plus8) p)) s

/-- The payload of a word list: `MemWrite(2*i, 2, words[i])` (42_info.md R193). -/
def wordsPayload (words : List Nat) : List Byte := words.flatMap (leBytes 2)

/-- INFO.MODE_COMBOS, encode: 1 to 16 words of 16 bits (42_info.md R193). -/
def buildInfoModeCombos (mode : Nat) (words : List Nat) : Except Condition Built :=
  require (decide (1 ≤ words.length) && words.all fun w => decide (w ≤ 0xFFFF)) .fieldOutOfRange
    (buildPlain (.info mode 0x06) (wordsPayload words))

/-! ### INFO.FORMAT -/

/-- INFO.FORMAT, decode: four bytes and two flags (42_info.md R195). -/
def decodeInfoFormat (mode : LogicalMode) (p : List Byte) : Msg :=
  if p.length = 4 then
    .infoFormat mode (byteAt p 0) (byteAt p 1) (byteAt p 2) (byteAt p 3)
      (formatFlags (byteAt p 0) (byteAt p 1)).1 (formatFlags (byteAt p 0) (byteAt p 1)).2
  else .malformed .infoFormat p

/-- INFO.FORMAT received (42_info.md R195). -/
def execInfoFormat (sc wire : Field3) (plus8 : Bool) (p : List Byte) (chk : Byte) (s : State) :
    Result :=
  receive (infoFrame 0x80 sc wire plus8 p chk s.rxAcc (decodeInfoFormat (logicalMode wire plus8) p)) s

/-- INFO.FORMAT, encode, with its two flags (42_info.md R197). -/
def buildInfoFormat (mode dataSets dataFormat figures decimals : Nat) : Except Condition Built :=
  require (decide (dataSets ≤ 255) && decide (dataFormat ≤ 255) && decide (figures ≤ 255) &&
      decide (decimals ≤ 255)) .fieldOutOfRange <|
  let b0 := BitVec.ofNat 8 dataSets
  let b1 := BitVec.ofNat 8 dataFormat
  match buildFrame (.info mode 0x80) [b0, b1, BitVec.ofNat 8 figures, BitVec.ofNat 8 decimals] with
  | .error c => .error c
  | .ok bs =>
    .ok { bytes := bs, sizeViolation := (formatFlags b0 b1).1, formatReserved := (formatFlags b0 b1).2 }

/-! ### Unknown subtypes -/

/-- INFO.UNSUPPORTED, decode: the marker (42_info.md R200). -/
def decodeInfoUnsupported (mode : LogicalMode) (id : Byte) (p : List Byte) : Msg :=
  .unsupported mode id p

/-- INFO.UNSUPPORTED received: a frame like any other (42_info.md R200). -/
def execInfoUnsupported (sc wire : Field3) (plus8 : Bool) (id : Byte) (p : List Byte) (chk : Byte)
    (s : State) : Result :=
  receive (infoFrame id sc wire plus8 p chk s.rxAcc
    (decodeInfoUnsupported (logicalMode wire plus8) id p)) s

end Sys2Proof.Machine
end

