-- ==== Sys2Proof/Machine/Sys.lean ====
section
/-! DEFINITION. The SYS message (40_sys.md). -/

namespace Sys2Proof.Machine

/-- SYS: a complete frame by itself, never with a checksum fault (40_sys.md R131, R132). -/
def execSys (sizeBits code : Field3) (s : State) : Result := receive (sysFrame sizeBits code) s

/-- SYS, encode (40_sys.md R133). -/
def buildSys (b : Nat) : Except Condition Built :=
  match buildSysByte b with
  | .error c => .error c
  | .ok bs => .ok { bytes := bs }

end Sys2Proof.Machine
end

