-- ==== Sys2Proof/Machine/Dispatch.lean ====
section
/-! DEFINITION. The dispatcher: the meaning of each message kind, one arm per row of
spec/opcode_table.json. -/

namespace Sys2Proof.Machine

/-- What the block does when a frame of this kind is complete (46_session.md R295). -/
def exec (i : Instr) (s : State) : Host.Outcome State Fault Refusal :=
  match i with
  | .sys sizeBits code => Sys2Proof.Machine.execSys sizeBits code s
  | .cmdType sc p chk => Sys2Proof.Machine.execCmdType sc p chk s
  | .cmdModes sc p chk => Sys2Proof.Machine.execCmdModes sc p chk s
  | .cmdSpeed sc p chk => Sys2Proof.Machine.execCmdSpeed sc p chk s
  | .cmdSelect sc p chk => Sys2Proof.Machine.execCmdSelect sc p chk s
  | .cmdWrite sc p chk => Sys2Proof.Machine.execCmdWrite sc p chk s
  | .cmdUnk1 sc p chk => Sys2Proof.Machine.execCmdUnk1 sc p chk s
  | .cmdExtMode sc p chk => Sys2Proof.Machine.execCmdExtMode sc p chk s
  | .cmdVersion sc p chk => Sys2Proof.Machine.execCmdVersion sc p chk s
  | .infoName sc wire plus8 p chk => Sys2Proof.Machine.execInfoName sc wire plus8 p chk s
  | .infoRaw sc wire plus8 p chk => Sys2Proof.Machine.execInfoRaw sc wire plus8 p chk s
  | .infoPct sc wire plus8 p chk => Sys2Proof.Machine.execInfoPct sc wire plus8 p chk s
  | .infoSi sc wire plus8 p chk => Sys2Proof.Machine.execInfoSi sc wire plus8 p chk s
  | .infoUnits sc wire plus8 p chk => Sys2Proof.Machine.execInfoUnits sc wire plus8 p chk s
  | .infoMapping sc wire plus8 p chk => Sys2Proof.Machine.execInfoMapping sc wire plus8 p chk s
  | .infoModeCombos sc wire plus8 p chk => Sys2Proof.Machine.execInfoModeCombos sc wire plus8 p chk s
  | .infoFormat sc wire plus8 p chk => Sys2Proof.Machine.execInfoFormat sc wire plus8 p chk s
  | .infoUnsupported sc wire plus8 id p chk => Sys2Proof.Machine.execInfoUnsupported sc wire plus8 id p chk s
  | .data sc wire p chk => Sys2Proof.Machine.execData sc wire p chk s

end Sys2Proof.Machine
end

