-- ==== Sys2Proof/Machine/FrameStream.lean ====
section
/-! DEFINITION. The frame-stream decoder: the dispatcher by number, the pure function on a byte sequence
and the byte-serial machine over the decoder registers (44_frame_decoder.md R222 to R233). -/

namespace Sys2Proof.Machine

/-! ### The dispatcher by number (44_frame_decoder.md R233) -/

/-- The CMD codec of a command field (44_frame_decoder.md R233). -/
def decodeCmdPayload (code : Field3) (p : List Byte) : Msg :=
  match code.toNat with
  | 0 => decodeCmdType p
  | 1 => decodeCmdModes p
  | 2 => decodeCmdSpeed p
  | 3 => decodeCmdSelect p
  | 4 => decodeCmdWrite p
  | 5 => decodeCmdUnk1 p
  | 6 => decodeCmdExtMode p
  | _ => decodeCmdVersion p

/-- The INFO codec of a subtype byte (44_frame_decoder.md R233). -/
def decodeInfoPayload (wire : Field3) (sub : Byte) (p : List Byte) : Msg :=
  let mode := logicalMode wire (plus8Of sub)
  match (subtypeIdOf sub).toNat with
  | 0x00 => decodeInfoName mode p
  | 0x01 => decodeInfoRaw mode p
  | 0x02 => decodeInfoPct mode p
  | 0x03 => decodeInfoSi mode p
  | 0x04 => decodeInfoUnits mode p
  | 0x05 => decodeInfoMapping mode p
  | 0x06 => decodeInfoModeCombos mode p
  | 0x80 => decodeInfoFormat mode p
  | _ => decodeInfoUnsupported mode (subtypeIdOf sub) p

/-- `decode_payload(h, sub, p)` for a frame that is not SYS (44_frame_decoder.md R233). -/
def decodePayload (h sub : Byte) (p : List Byte) : Msg :=
  match categoryOf h with
  | .cmd => decodeCmdPayload (codeField h) p
  | .info => decodeInfoPayload (codeField h) sub p
  | _ => decodeData (codeField h) p

/-- The frame record of the bytes of a frame and the computed checksum (44_frame_decoder.md R222). -/
def frameRecord (raw : RawFrame) (acc : Byte) : Frame :=
  match raw with
  | .single h =>
    { hdr := h, cat := .sys, sizeBits := sizeField h, code := codeField h, subRaw := none, mode := none,
      payload := [], chkRx := none, chkCalc := none, chkFault := false,
      msg := .sys (codeField h) (sizeField h) }
  | .plain h p c =>
    { hdr := h, cat := categoryOf h, sizeBits := sizeField h, code := codeField h, subRaw := none,
      mode := if categoryOf h = .data then some ((codeField h).setWidth 4) else none,
      payload := p, chkRx := some c, chkCalc := some acc, chkFault := c != acc,
      msg := decodePayload h 0 p }
  | .withSub h sub p c =>
    { hdr := h, cat := categoryOf h, sizeBits := sizeField h, code := codeField h, subRaw := some sub,
      mode := some (logicalMode (codeField h) (plus8Of sub)),
      payload := p, chkRx := some c, chkCalc := some acc, chkFault := c != acc,
      msg := decodePayload h sub p }

/-- The bytes the checksum covers: every byte of the frame before the checksum byte (30_encoding.md
R108). -/
def coveredBytes : RawFrame → List Byte
  | .single h => [h]
  | .plain h p _ => h :: p
  | .withSub h sub p _ => h :: sub :: p

/-! ### The pure function (44_frame_decoder.md R222, R223) -/

/-- How a sequence ends (44_frame_decoder.md R223). -/
inductive EndStatus where
  /-- `EndOk`: the input is exhausted at a frame boundary. -/
  | endOk
  /-- `MalformedStream(Truncated)`. -/
  | truncated
  /-- `MalformedStream(ReservedSizeClass)`, with the header byte and its offset. -/
  | reservedSizeClass (hdr : Byte) (offset : Nat)
  deriving DecidableEq, Repr

/-- The frames yielded, in order, and the end status. -/
structure StreamResult where
  frames : List Frame
  status : EndStatus
  deriving DecidableEq, Repr

/-- `decode_stream` from offset `pos`; each turn takes at least one byte, so `fuel` is at most the number
of bytes. -/
def decodeStreamFrom : (fuel pos : Nat) → List Byte → StreamResult
  | 0, _, _ => ⟨[], .endOk⟩
  | fuel + 1, pos, bs =>
    match readFrame bs with
    | .error .endOfInput => ⟨[], .endOk⟩
    | .error .truncated => ⟨[], .truncated⟩
    | .error (.reservedSizeClass h) => ⟨[], .reservedSizeClass h pos⟩
    | .ok (raw, rest) =>
      let tail := decodeStreamFrom fuel (pos + raw.bytes.length) rest
      ⟨frameRecord raw (checksum (coveredBytes raw)) :: tail.frames, tail.status⟩

/-- `decode_stream(bs)` (44_frame_decoder.md R222). -/
def decodeStream (bs : List Byte) : StreamResult := decodeStreamFrom bs.length 0 bs

/-! ### The byte-serial machine (44_frame_decoder.md R225 to R230) -/

/-- The result of `FsByte` (44_frame_decoder.md R225). A completed frame is given as its instruction. -/
inductive FsResult where
  /-- `none`: the frame is not complete. -/
  | pending
  /-- This byte completed a frame. -/
  | complete (i : Instr)
  /-- `MalformedStream(ReservedSizeClass)` at this header byte. -/
  | error (hdr : Byte)
  /-- Registers that no run holds (notes/assumptions/11.md). -/
  | stuck (f : Fault)
  deriving DecidableEq, Repr

/-- `FsByte(b)` at a frame boundary (44_frame_decoder.md R226). -/
def fsIdle (b : Byte) (s : State) : FsResult × State :=
  match decodeHeader b with
  | .sys code => (.complete (.sys (sizeField b) code), takeByte s)
  | .reserved _ _ _ => (.error b, takeByte s)
  | .frame _ _ _ => (.pending, latchHeader b (takeByte s))

/-- `FsByte(b)` for a payload byte (44_frame_decoder.md R228). -/
def fsPayload (b : Byte) (s : State) : FsResult × State :=
  if s.rxCnt.toNat < 32 then (.pending, latchPayload b (takeByte s))
  else (.stuck (.payloadIndex s.rxCnt.toNat), s)

/-- `FsByte(b)` for the checksum byte: the registers hold the bytes of one frame, which is decoded
(44_frame_decoder.md R229). -/
def fsChecksum (b : Byte) (s : State) : FsResult × State :=
  match decode (s.frameBytes b) with
  | .ok (i, []) => (.complete i, { takeByte s with rxState := .idle })
  | _ => (.stuck .frameRegisters, s)

/-- `FsByte(b)` (44_frame_decoder.md R225). -/
def fsByte (b : Byte) (s : State) : FsResult × State :=
  match s.rxState with
  | .idle => fsIdle b s
  | .sub => (.pending, latchSubtype b (takeByte s))
  | .pay => fsPayload b s
  | .chk => fsChecksum b s

/-- `FsEnd()` (44_frame_decoder.md R230). -/
def fsEnd (s : State) : EndStatus := if s.rxState = .idle then .endOk else .truncated

/-- Feed a byte sequence to `FsByte` and then call `FsEnd` (44_frame_decoder.md R231); `none` when the
registers are such as no run holds. -/
def fsRun : List Byte → State → Option StreamResult
  | [], s => some ⟨[], fsEnd s⟩
  | b :: bs, s =>
    match fsByte b s with
    | (.pending, s') => fsRun bs s'
    | (.complete i, s') =>
      (fsRun bs s').map fun r => ⟨frameRecord (rawOf i) s.rxAcc :: r.frames, r.status⟩
    | (.error h, s') => some ⟨[], .reservedSizeClass h (s'.rxPos - 1)⟩
    | (.stuck _, _) => none

end Sys2Proof.Machine
end

