-- ==== Sys2Proof/Machine/Query.lean ====
section
/-! DEFINITION. Encoding a host query (45_tx_encoder.md R251, R263). -/

namespace Sys2Proof.Machine

/-- The builder of each kind (45_tx_encoder.md R251). -/
def buildMsg : MsgSpec → Except Condition Built
  | .sys b => buildSys b
  | .cmdType t => buildCmdType t
  | .cmdModes counts => buildCmdModes counts
  | .cmdSpeed baud => buildCmdSpeed baud
  | .cmdSelect raw => buildCmdSelect raw
  | .cmdWrite raw => buildCmdWrite raw
  | .cmdUnk1 raw => buildCmdUnk1 raw
  | .cmdExtMode raw => buildCmdExtMode raw
  | .cmdVersion fw hw => buildCmdVersion fw hw
  | .infoName mode text flags => buildInfoName mode text flags
  | .infoRaw mode min max => buildInfoRaw mode min max
  | .infoPct mode min max => buildInfoPct mode min max
  | .infoSi mode min max => buildInfoSi mode min max
  | .infoUnits mode text flags => buildInfoUnits mode text flags
  | .infoMapping mode input output => buildInfoMapping mode input output
  | .infoModeCombos mode words => buildInfoModeCombos mode words
  | .infoFormat mode ds df fig dec => buildInfoFormat mode ds df fig dec
  | .data mode raw => buildData mode raw

/-- `encode_query(q)` (45_tx_encoder.md R263). The warnings of a builder do not travel with the query
(notes/assumptions/19.md). -/
def encodeQuery (cfg : Cfg) : Query → Except Condition EncodedQuery
  | .frame spec =>
    match buildMsg spec with
    | .error c => .error c
    | .ok built => .ok ⟨built.bytes, false⟩
  | .write mode raw twoPart =>
    if 8 ≤ mode ∨ twoPart = true then
      match buildWrite2 cfg mode raw with
      | .error c => .error c
      | .ok bs => .ok ⟨bs, true⟩
    else
      match buildFrame (.data mode) raw with
      | .error c => .error c
      | .ok bs => .ok ⟨bs, false⟩

end Sys2Proof.Machine
end

