-- ==== Sys2Proof/Machine/Session.lean ====
section
/-! DEFINITION. The session engine: what each event does in each phase, and the order of one step
(46_session.md R280 to R308; 60_exceptions.md R345). -/

namespace Sys2Proof.Machine

/-- A condition that refuses a host event (60_exceptions.md R352). -/
def rejectEvent (c : Condition) (s : State) : State := emit (.reject c) s

/-- `EvRx(b)` in `Active` (46_session.md R295, R296). -/
def rxActive (b : Byte) (s : State) : Result :=
  match fsByte b s with
  | (.pending, s') => .next s'
  | (.complete i, s') => exec i s'
  | (.error h, s') => .next (fatal (.reservedSizeClass h) s')
  | (.stuck f, _) => .fault f

/-- `EvIdle` in `Active`: "nothing yet" at a frame boundary, a short read inside a frame (46_session.md
R299). -/
def idleActive (s : State) : State := if s.rxState = .idle then s else fatal .peerDisconnect s

/-- `EvSubmit(q)` in `Active` (46_session.md R305). -/
def submitActive (q : Query) (s : State) : State :=
  match s.pendingQuery with
  | some _ => rejectEvent .queryBusy s
  | none =>
    match encodeQuery s.cfg q with
    | .error c => rejectEvent c s
    | .ok eq => { s with pendingQuery := some eq }

/-- Events in `Disconnected` (46_session.md R283, R284). -/
def handleDisconnected (ev : Event) (s : State) : Result :=
  match ev with
  | .reset => .next (resetRegisters s)
  | .start => startSession s
  | .rx _ => .next s
  | .idle => .next s
  | .closed => .next s
  | .submit _ => .next (rejectEvent .notActive s)

/-- Events in `Handshaking` (46_session.md R286, R287, R291, R294). -/
def handleHandshaking (ev : Event) (now : Nat) (s : State) : Result :=
  match ev with
  | .reset => .next (resetRegisters s)
  | .start => .next (rejectEvent .alreadyStarted s)
  | .rx b => .next (if s.hsStep = .capture then capture b now s else s)
  | .idle => .next (if s.hsStep = .capture then hsFail s else s)
  | .closed => .next (fatal .transportClosed s)
  | .submit _ => .next (rejectEvent .notActive s)

/-- Events in `Active` (46_session.md R295, R299, R300, R305, R306). -/
def handleActive (ev : Event) (s : State) : Result :=
  match ev with
  | .reset => .next (resetRegisters s)
  | .start => .next (rejectEvent .alreadyStarted s)
  | .rx b => rxActive b s
  | .idle => .next (idleActive s)
  | .closed => .next (fatal .transportClosed s)
  | .submit q => .next (submitActive q s)

/-- The handler of the current phase (46_session.md R308). -/
def handleEvent (ev : Event) (now : Nat) (s : State) : Result :=
  match s.phase with
  | .disconnected => handleDisconnected ev s
  | .handshaking => handleHandshaking ev now s
  | .active => handleActive ev s

/-- `if phase = Active: Sched(now)`, after the handler (46_session.md R282). -/
def schedIfActive (now : Nat) (r : Result) : Result :=
  match r with
  | .next s => .next (if s.phase = .active then sched now s else s)
  | .fault f => .fault f
  | .refused q => .refused q

/-- `Step(ev, now)` (46_session.md R282). -/
def stepEvent (ev : Event) (now : Nat) (s : State) : Result :=
  if ev = .reset then .next (resetRegisters s)
  else schedIfActive now (handleEvent ev now (settleTest now s))

/-- The host writes the configuration object: only while `phase` is `Disconnected` (10_state.md R24;
notes/assumptions/3.md, 10.md). -/
def configure (cfg : Cfg) (s : State) : Result :=
  if s.phase = .disconnected then .next { s with cfg := cfg } else .refused .configInSession

/-- Take the next input. With none the block waits (70_reset_and_hazards.md R381). -/
def stepInput (s : State) : Result :=
  match s.inputs with
  | [] => .next s
  | .event ev now :: rest => stepEvent ev now { s with inputs := rest }
  | .configure cfg :: rest => configure cfg { s with inputs := rest }

/-! ### Placing a frame where the next step completes it -/

/-- The decoder after the given bytes, from a frame boundary, without the session around it. -/
def feedDecoder : List Byte → State → State
  | [], s => s
  | b :: bs, s => feedDecoder bs (fsByte b s).2

/-- How many of the given bytes make the frame that starts with them: the whole frame for a header with a
size class, one byte otherwise (30_encoding.md R94). -/
def frameLength (bs : List Byte) : Nat :=
  match bs with
  | [] => 0
  | h :: _ =>
    match decodeHeader h with
    | .frame _ _ total => total
    | _ => 1

/-- The state in which the next input completes the frame at the head of `bs`: `Active`, the decoder
holding all but the frame's last byte, that byte the next to arrive (notes/assumptions/9.md). -/
def placeFrame (bs : List Byte) (s : State) : State :=
  let frame := bs.take (frameLength bs)
  let fed := feedDecoder frame.dropLast { s with phase := .active, rxState := .idle }
  { fed with inputs := .event (.rx (frame.getLastD 0)) s.lastKeepaliveTime :: s.inputs }

end Sys2Proof.Machine
end

