-- ==== Sys2Proof/Machine/Step.lean ====
section
/-! DEFINITION. One step of the machine: one input (46_session.md R282). -/

namespace Sys2Proof.Machine

/-- One step: the next input, handled to completion (00_scope.md R8, 20_memory.md R73). -/
def step (s : State) : Host.Outcome State Fault Refusal := stepInput s

/-- `s` with the frame of a word of spec/opcode_table.json where the next step completes it
(notes/assumptions/9.md). -/
def State.withFetchWord (s : State) (nbits w : Nat) : State := placeFrame (tableWordBytes nbits w) s

end Sys2Proof.Machine
end

