-- ==== Sys2Proof/Safety.lean ====
section
/-! DEFINITION. The terms the claims use: what the spec's records and register contents are, said without
the model's own operations, and the invariants of a run. -/

namespace Sys2Proof.Safety

open Sys2Proof.Machine

/-! ### Inputs and outputs of a step -/

/-- The next input is this event, at this time; `rest` follows. -/
def NextEvent (s : State) (ev : Event) (now : Nat) (rest : List Input) : Prop :=
  s.inputs = .event ev now :: rest

/-- The actions the step from `s` to `s'` produced, in order (10_state.md R51). -/
def Produced (s s' : State) (new : List Action) : Prop := s'.outputs = s.outputs ++ new

/-- The condition an action reports or rejects with, if it does (60_exceptions.md R331). -/
def conditionOf : Action → Option Condition
  | .report c => some c
  | .reject c => some c
  | .openTransport _ => none
  | .setBaud _ => none
  | .closeTransport => none
  | .tx _ => none
  | .deliver _ => none

/-- The conditions of a list of actions, one for each action that carries one. -/
def conditionsIn (new : List Action) : List Condition := new.filterMap conditionOf

/-- A configuration is well-formed, in the words of 10_state.md R25: bits 7:6 of the two SYS bytes are
zero, and the keep-alive interval is at most 200 ms. -/
def WellFormedCfg (tickNs : Nat) (c : Cfg) : Prop :=
  1 ≤ c.refBlob.length ∧ 1 ≤ c.hsAttempts ∧ c.keepaliveInterval * tickNs ≤ 200000000 ∧
  c.sysAck.toNat < 64 ∧ c.sysKeepalive.toNat < 64

/-! ### Records (10_state.md R34) -/

/-- The record of a CMD frame: header `0x40 | (size_class << 3) | cmd` (41_cmd.md R140). -/
def cmdRecord (cmd : Nat) (sc : Field3) (p : List Byte) (chk acc : Byte) (msg : Msg) : Frame where
  hdr := BitVec.ofNat 8 (0x40 + 8 * sc.toNat + cmd)
  cat := .cmd
  sizeBits := sc
  code := BitVec.ofNat 3 cmd
  subRaw := none
  mode := none
  payload := p
  chkRx := some chk
  chkCalc := some acc
  chkFault := decide (chk ≠ acc)
  msg := msg

/-- The logical mode number of an INFO frame: `m + 8` with the flag, `m` without (30_encoding.md R104). -/
def modeNumber (wire : Field3) (plus8 : Bool) : Nat := wire.toNat + if plus8 then 8 else 0

/-- The record of an INFO frame: header `0x80 | (size_class << 3) | wire_mode`, subtype byte with bit 5
the mode-plus-8 flag (42_info.md R170). -/
def infoRecord (id : Byte) (sc wire : Field3) (plus8 : Bool) (p : List Byte) (chk acc : Byte)
    (msg : Msg) : Frame where
  hdr := BitVec.ofNat 8 (0x80 + 8 * sc.toNat + wire.toNat)
  cat := .info
  sizeBits := sc
  code := wire
  subRaw := some (id ||| if plus8 then 0x20 else 0)
  mode := some (BitVec.ofNat 4 (modeNumber wire plus8))
  payload := p
  chkRx := some chk
  chkCalc := some acc
  chkFault := decide (chk ≠ acc)
  msg := msg

/-- The record of a DATA frame: header `0xC0 | (size_class << 3) | wire_mode` (43_data.md R210). -/
def dataRecord (sc wire : Field3) (p : List Byte) (chk acc : Byte) (msg : Msg) : Frame where
  hdr := BitVec.ofNat 8 (0xC0 + 8 * sc.toNat + wire.toNat)
  cat := .data
  sizeBits := sc
  code := wire
  subRaw := none
  mode := some (BitVec.ofNat 4 wire.toNat)
  payload := p
  chkRx := some chk
  chkCalc := some acc
  chkFault := decide (chk ≠ acc)
  msg := msg

/-- The record of a SYS byte (40_sys.md R131). -/
def sysRecord (sizeBits code : Field3) : Frame where
  hdr := BitVec.ofNat 8 (8 * sizeBits.toNat + code.toNat)
  cat := .sys
  sizeBits := sizeBits
  code := code
  subRaw := none
  mode := none
  payload := []
  chkRx := none
  chkCalc := none
  chkFault := false
  msg := .sys code sizeBits

/-! ### The effect of a completed frame (46_session.md R297, R298) -/

/-- The report of a checksum fault: none when the bytes agree (46_session.md R297). -/
def checksumReport (chk acc : Byte) : List Action :=
  if chk = acc then [] else [.report (.checksumFault chk acc)]

/-- The state after a frame is delivered: every other register, the payload buffer, the decoder's
registers, the timers, the query and the configuration are unchanged (46_session.md R298). -/
def delivered (f : Frame) (reports : List Action) (s : State) : State :=
  { s with
    outputs := s.outputs ++ reports ++ [.deliver ⟨f, s.extHold⟩]
    extHold := none
    multipartPending := false }

/-- The state after an EXT_MODE frame is held: nothing is delivered (46_session.md R298). -/
def held (f : Frame) (reports : List Action) (s : State) : State :=
  { s with
    outputs := s.outputs ++ reports
    extHold := some f
    multipartPending := true }

/-- The entry to `Disconnected` of a fatal condition, from a state whose next inputs are `rest`: the given
actions, the register values of 10_state.md R56, and the registers that keep their values. The registers
left out hold no defined value after it. -/
def EntersDisconnected (s s' : State) (rest : List Input) (actions : List Action) : Prop :=
  s'.outputs = s.outputs ++ actions ∧ s'.inputs = rest ∧
  s'.phase = .disconnected ∧ s'.multipartPending = false ∧ s'.pendingQuery = none ∧
  s'.extHold = none ∧ s'.hsStep = .capture ∧ s'.hsBuf = [] ∧ s'.hsLeft = 0 ∧
  s'.rxState = .idle ∧ s'.rxCnt = 0 ∧ s'.rxAcc = 0xFF ∧
  s'.lastKeepaliveTime = s.lastKeepaliveTime ∧ s'.lastQueryTime = s.lastQueryTime ∧
  s'.settleDeadline = s.settleDeadline ∧ s'.activeBaud = s.activeBaud ∧
  s'.cfg = s.cfg ∧ s'.tickNs = s.tickNs

/-! ### Building frames (45_tx_encoder.md) -/

/-- The header fields of a target are in range, in the words of 45_tx_encoder.md R257 and 30_encoding.md
R107. -/
def TargetOk : FrameTarget → Prop
  | .cmd code => code ≤ 7
  | .info mode id => mode ≤ 15 ∧ id ∈ [0, 1, 2, 3, 4, 5, 6, (0x80 : Byte)]
  | .data mode => mode ≤ 7

/-- A frame record carries the category, the command or mode, and the subtype id of a target
(45_tx_encoder.md R259). -/
def SameTarget (f : Frame) : FrameTarget → Prop
  | .cmd code => f.cat = .cmd ∧ f.code.toNat = code
  | .info mode id =>
    f.cat = .info ∧ f.mode = some (BitVec.ofNat 4 mode) ∧ ∃ sub, f.subRaw = some sub ∧ sub &&& 0xDF = id
  | .data mode => f.cat = .data ∧ f.code.toNat = mode

/-- `p` is `raw` followed by zeros, of the least length `1 << sc` with `sc` in 0 to 5 that holds `raw`
(30_encoding.md R102). -/
def PaddedTo (raw p : List Byte) : Prop :=
  ∃ k sc, p = raw ++ List.replicate k 0 ∧ p.length = 2 ^ sc ∧ sc ≤ 5 ∧ ∀ j, j < sc → 2 ^ j < raw.length

/-- Building a message and decoding the bytes alone yields one good frame that carries `msg`
(45_tx_encoder.md R260). -/
def ComesBackAs (spec : MsgSpec) (msg : Msg) : Prop :=
  ∃ b f, buildMsg spec = .ok b ∧ decodeStream b.bytes = ⟨[f], .endOk⟩ ∧ f.chkFault = false ∧ f.msg = msg

/-- A text the encoder accepts: ASCII bytes, none zero (42_info.md R173). -/
def AsciiText (text : List Byte) : Prop := ∀ b ∈ text, 1 ≤ b.toNat ∧ b.toNat ≤ 127

/-- An operand of MAPPING that is present and out of range: a byte value above 255, or a set with a name
outside the table (42_info.md R188, 45_tx_encoder.md R252). -/
def BadFlagArg : Option FlagArg → Prop
  | none => False
  | some (.byteValue v) => 255 < v
  | some (.names ns) => ∃ spelling, MappingName.other spelling ∈ ns

/-- `b` is the flag byte of an operand of MAPPING and `ambiguous` its flag: a byte value as it is, not
flagged; of a set of names, each named bit of 42_info.md R187 set exactly when its name is given, bits 5
and 1 clear, and the flag exactly when "N/A" is given (42_info.md R188). -/
def FlagByteOf : FlagArg → (b : Byte) → (ambiguous : Bool) → Prop
  | .byteValue v, b, ambiguous => b.toNat = v ∧ ambiguous = false
  | .names ns, b, ambiguous =>
    (b.getLsbD 7 = true ↔ MappingName.null ∈ ns) ∧
    (b.getLsbD 6 = true ↔ MappingName.funcMapping2 ∈ ns) ∧
    b.getLsbD 5 = false ∧
    (b.getLsbD 4 = true ↔ MappingName.absolute ∈ ns) ∧
    (b.getLsbD 3 = true ↔ MappingName.relative ∈ ns) ∧
    (b.getLsbD 2 = true ↔ MappingName.discrete ∈ ns) ∧
    b.getLsbD 1 = false ∧
    (b.getLsbD 0 = true ↔ MappingName.notApplicable ∈ ns) ∧
    (ambiguous = true ↔ MappingName.notApplicable ∈ ns)

/-- Every field of a version record is in the range of 41_cmd.md R156. -/
def VersionOk (v : VersionSpec) : Prop :=
  v.major ≤ 15 ∧ v.minor ≤ 15 ∧ v.bugfix ≤ 255 ∧ v.build ≤ 65535

/-- A version record with these field values. -/
def versionValue (v : VersionSpec) : Version where
  major := BitVec.ofNat 4 v.major
  minor := BitVec.ofNat 4 v.minor
  bugfix := BitVec.ofNat 8 v.bugfix
  build := BitVec.ofNat 16 v.build

/-- `size_of(data_format)` for the four formats (42_info.md R196). -/
def formatSize (dataFormat : Nat) : Nat :=
  if dataFormat = 0 then 1 else if dataFormat = 1 then 2 else 4

/-- The FORMAT message of four bytes: `size_violation` when the format is one of the four and
`data_sets * size_of(data_format) > 32`, `format_reserved` when it is above 3 (42_info.md R196). -/
def formatMsg (mode : LogicalMode) (ds df fig dec : Byte) : Msg :=
  .infoFormat mode ds df fig dec
    (decide (df.toNat ≤ 3 ∧ 32 < ds.toNat * formatSize df.toNat)) (decide (3 < df.toNat))

/-! ### The text codec (42_info.md R174) -/

/-- `text` and `flags` are what a payload of NAME or UNITS decodes to: with more than 12 bytes and a zero
among the first six, the text before the least such zero and the six bytes after it; else the payload
without its trailing zeros (42_info.md R174). -/
def TextOf (p text : List Byte) (flags : Option (List Byte)) : Prop :=
  (∃ z, z < 6 ∧ p[z]? = some 0 ∧ (∀ j, j < z → p[j]? ≠ some 0) ∧ 12 < p.length ∧
    text = p.take z ∧ flags = some ((p.drop (z + 1)).take 6)) ∨
  ((p.length ≤ 12 ∨ ∀ j, j < 6 → p[j]? ≠ some 0) ∧ flags = none ∧
    (∃ k, p = text ++ List.replicate k 0) ∧ text.getLast? ≠ some 0)

/-! ### Invariants -/

/-- The bytes of the current frame that the decoder has taken so far (30_encoding.md R108). -/
def collected (s : State) : List Byte :=
  s.rxHdr :: ((if categoryOf s.rxHdr = .info ∧ s.rxState ≠ .sub then [s.rxSub] else []) ++
    s.rxBuf.toList.take s.rxCnt.toNat)

/-- The decoder stands inside a frame: the header is a framed one with a defined size class, `rx_len` is
its payload length, and `rx_acc` is the checksum of the bytes taken (10_state.md R26). -/
def MidFrame (s : State) : Prop :=
  categoryOf s.rxHdr ≠ .sys ∧ (sizeField s.rxHdr).toNat < 6 ∧
  s.rxLen.toNat = 2 ^ (sizeField s.rxHdr).toNat ∧ s.rxAcc = checksum (collected s)

/-- The decoder registers stand for a position inside a frame (10_state.md R26, R31). -/
def DecoderInv (s : State) : Prop :=
  (s.rxState = .sub → MidFrame s ∧ categoryOf s.rxHdr = .info ∧ s.rxCnt = 0) ∧
  (s.rxState = .pay → MidFrame s ∧ s.rxCnt.toNat < s.rxLen.toNat) ∧
  (s.rxState = .chk → MidFrame s ∧ s.rxCnt = s.rxLen)

/-- What the session registers hold, phase by phase (60_exceptions.md R358, 10_state.md R22, R56). -/
def SessionInv (s : State) : Prop :=
  (s.phase ≠ .disconnected → WellFormedCfg s.tickNs s.cfg) ∧
  (s.phase = .disconnected → s.hsStep = .capture ∧ s.hsBuf = [] ∧ s.hsLeft = 0) ∧
  (s.phase = .handshaking → 1 ≤ s.hsLeft ∧ s.hsLeft ≤ s.cfg.hsAttempts ∧
    (s.hsStep = .capture → s.hsBuf.length < s.cfg.refBlob.length) ∧
    (s.hsStep = .settle → s.hsBuf = [])) ∧
  (s.phase ≠ .active → s.multipartPending = false ∧ s.pendingQuery = none ∧ s.extHold = none ∧
    s.rxState = .idle) ∧
  (s.extHold.isSome = true → s.multipartPending = true) ∧
  (∀ f, s.extHold = some f → f.cat = .cmd ∧ f.code = 6)

/-- Two states a host cannot tell apart: they agree on everything but registers that hold no defined
value (10_state.md R27, 70_reset_and_hazards.md R382), on `active_baud`, which no rule reads, and on the
model's own count of free values. -/
def SameToHost (a b : State) : Prop :=
  (a.phase = b.phase ∧ a.multipartPending = b.multipartPending ∧ a.hsStep = b.hsStep ∧
    a.hsBuf = b.hsBuf ∧ a.hsLeft = b.hsLeft ∧ a.pendingQuery = b.pendingQuery ∧
    a.extHold = b.extHold) ∧
  (a.rxPos = b.rxPos ∧ a.rxState = b.rxState ∧ a.rxCnt = b.rxCnt ∧ a.rxAcc = b.rxAcc) ∧
  (a.cfg = b.cfg ∧ a.tickNs = b.tickNs ∧ a.inputs = b.inputs ∧ a.outputs = b.outputs) ∧
  (a.phase = .active → a.lastKeepaliveTime = b.lastKeepaliveTime ∧ a.lastQueryTime = b.lastQueryTime) ∧
  (a.phase = .handshaking → a.hsStep = .settle → a.settleDeadline = b.settleDeadline) ∧
  (a.rxState ≠ .idle → a.rxHdr = b.rxHdr ∧ a.rxLen = b.rxLen) ∧
  (a.rxState = .pay ∨ a.rxState = .chk →
    (categoryOf a.rxHdr = .info → a.rxSub = b.rxSub) ∧
    a.rxBuf.toList.take a.rxCnt.toNat = b.rxBuf.toList.take a.rxCnt.toNat)

end Sys2Proof.Safety
end

