-- ==== Sys2Proof/Certificates/Slice0/Obligations.lean ====
section
/-! DEFINITION. The statements for the provers, from the numbered rules of spec/. -/

open Sys2Proof Sys2Proof.Machine Sys2Proof.Safety

/-! ### Encoding and decoding of frames -/

/-- Decoding the encoding of a well-formed instruction gives it back, with whatever follows it untouched:
no bit of an encoding is dropped. -/
def Obligations.DecodeOfEncode : Prop :=
  ∀ (i : Instr) (rest : List Byte), i.wf = true → decode (encode i ++ rest) = .ok (i, rest)

/-- The other direction: what the decoder accepts is a well-formed instruction, and its encoding is the
bytes taken. -/
def Obligations.EncodeOfDecode : Prop :=
  ∀ (bs : List Byte) (i : Instr) (rest : List Byte), decode bs = .ok (i, rest) →
    i.wf = true ∧ encode i ++ rest = bs

/-- The decoder rejects by name: the empty input, a reserved size class outside SYS, a frame cut short;
and accepts everything else, taking exactly the frame's bytes. -/
def Obligations.DecodeRejectsByName : Prop :=
  decode [] = .error .endOfInput ∧
  (∀ (h : Byte) (t : List Byte), h.toNat < 64 → ∃ i, decode (h :: t) = .ok (i, t)) ∧
  (∀ (h : Byte) (t : List Byte), 64 ≤ h.toNat → 6 ≤ h.toNat / 8 % 8 →
    decode (h :: t) = .error (.reservedSizeClass h)) ∧
  (∀ (h : Byte) (t : List Byte), 64 ≤ h.toNat → h.toNat / 8 % 8 < 6 →
    let needed := 2 ^ (h.toNat / 8 % 8) + if h.toNat / 64 = 2 then 2 else 1
    (t.length < needed → decode (h :: t) = .error .truncated) ∧
    (needed ≤ t.length → ∃ i, decode (h :: t) = .ok (i, t.drop needed)))

/-- Every pair of a header byte and the byte after it selects exactly one row of spec/opcode_table.json,
and a frame that begins with the pair decodes to that row's kind. -/
def Obligations.EachPairSelectsOneKind : Prop :=
  ∀ h next : Byte, ∃ k, kindsSelected h next = [k] ∧
    ∀ (rest tail : List Byte) (i : Instr), decode (h :: next :: rest) = .ok (i, tail) → i.kind = k

/-- A few words written out from the spec's encodings decode to the instructions they stand for. -/
def Obligations.WrittenWordsDecode : Prop :=
  decode [0x3A] = .ok (.sys 7 2, []) ∧
  decode [0x40, 0x22, 0x9D] = .ok (.cmdType 0 [0x22] 0x9D, []) ∧
  decode [0x49, 0x03, 0x02, 0xB7] = .ok (.cmdModes 1 [0x03, 0x02] 0xB7, []) ∧
  decode [0x81, 0x20, 0x58, 0x06] = .ok (.infoName 0 1 true [0x58] 0x06, []) ∧
  decode [0x92, 0xA0, 0x03, 0x01, 0x05, 0x01, 0xCB] =
    .ok (.infoFormat 2 2 true [0x03, 0x01, 0x05, 0x01] 0xCB, []) ∧
  decode [0x84, 0x67, 0x01, 0x1D] = .ok (.infoUnsupported 0 4 true 0x47 [0x01] 0x1D, []) ∧
  decode [0xC0, 0x00, 0x00] = .ok (.data 0 0 [0x00] 0x00, [])

/-- The three worked examples of the source's header decoder. -/
def Obligations.HeaderExamples : Prop :=
  decodeHeader 0xC0 = .frame .data 0 3 ∧ decodeHeader 0xDE = .frame .data 6 10 ∧
  decodeHeader 0xD0 = .frame .data 0 6

/-! ### Checksum, header encoder, frame builder -/

/-- The laws of the checksum: order does not matter; one appended byte is one exclusive-or; a frame's
bytes fold to `0xFF` exactly when the last is the checksum of the others; flipping bit `k` of one byte
flips bit `k` of the checksum, and flipping it in a second byte as well restores it. -/
def Obligations.ChecksumLaws : Prop :=
  (∀ a b : List Byte, a.Perm b → checksum a = checksum b) ∧
  (∀ (bs : List Byte) (b : Byte), checksum (bs ++ [b]) = checksum bs ^^^ b) ∧
  (∀ (bs : List Byte) (c : Byte), (bs ++ [c]).foldl (· ^^^ ·) 0 = 0xFF ↔ c = checksum bs) ∧
  (∀ (pre post : List Byte) (b : Byte) (k : Nat), k < 8 →
    checksum (pre ++ (b ^^^ (1 <<< k)) :: post) = checksum (pre ++ b :: post) ^^^ (1 <<< k)) ∧
  (∀ (pre mid post : List Byte) (b c : Byte) (k : Nat), k < 8 →
    checksum (pre ++ (b ^^^ (1 <<< k)) :: mid ++ (c ^^^ (1 <<< k)) :: post) =
      checksum (pre ++ b :: mid ++ c :: post))

/-- `encode_header`: SYS and a field above 7 are refused first, then a payload of 0 or more than 32 bytes;
else the search returns at its first test, and its result names the least size class that holds the
length. -/
def Obligations.EncodeHeaderOutcomes : Prop :=
  (∀ (cat : Category) (m len : Nat), cat = .sys ∨ 7 < m →
    encodeHeader cat m len = .error .fieldOutOfRange) ∧
  (∀ (cat : Category) (m len : Nat), cat ≠ .sys → m ≤ 7 → len = 0 ∨ 32 < len →
    encodeHeader cat m len = .error (.sizeOutOfRange len)) ∧
  (∀ (cat : Category) (m len : Nat), cat ≠ .sys → m ≤ 7 → 1 ≤ len → len ≤ 32 →
    ∃ sc : Field3, sc.toNat < 6 ∧ len ≤ 2 ^ sc.toNat ∧ (∀ j, j < sc.toNat → 2 ^ j < len) ∧
      headerSearch cat (BitVec.ofNat 3 m) len 1 len = some (headerByte cat sc (BitVec.ofNat 3 m)) ∧
      encodeHeader cat m len = .ok (headerByte cat sc (BitVec.ofNat 3 m)) ∧
      len + overhead cat ≤ decodedTotal (headerByte cat sc (BitVec.ofNat 3 m)))

/-- The frame builder: header fields out of range are refused first, then a payload of 0 or more than 32
bytes; every other call builds a frame of `P + overhead` bytes. -/
def Obligations.BuildFrameOutcomes : Prop :=
  (∀ (t : FrameTarget) (p : List Byte), ¬ TargetOk t → buildFrame t p = .error .fieldOutOfRange) ∧
  (∀ (t : FrameTarget) (p : List Byte), TargetOk t → p.length = 0 ∨ 32 < p.length →
    buildFrame t p = .error (.sizeOutOfRange p.length)) ∧
  (∀ (t : FrameTarget) (p : List Byte), TargetOk t → 1 ≤ p.length → p.length ≤ 32 →
    ∃ bs q, buildFrame t p = .ok bs ∧ PaddedTo p q ∧ bs.length = q.length + overhead t.cat)

/-- Every frame the builder returns decodes alone to exactly one good frame with the same category,
command or mode, subtype id, and the payload followed by zeros. -/
def Obligations.BuiltFrameDecodesAlone : Prop :=
  ∀ (t : FrameTarget) (p bs : List Byte), buildFrame t p = .ok bs →
    ∃ f, decodeStream bs = ⟨[f], .endOk⟩ ∧ f.chkFault = false ∧ SameTarget f t ∧ PaddedTo p f.payload

/-! ### Round trips of the message codecs -/

/-- SYS, TYPE, SPEED, VERSION and MODES with 1, 2 or 4 fields come back as they were sent. -/
def Obligations.SysAndCmdRoundTrip : Prop :=
  (∀ b, b < 64 → ComesBackAs (.sys b) (.sys (BitVec.ofNat 3 b) (BitVec.ofNat 3 (b / 8)))) ∧
  (∀ t, t ≤ 255 → ComesBackAs (.cmdType t) (.cmdType (BitVec.ofNat 8 t))) ∧
  (∀ baud, baud < 2 ^ 32 → ComesBackAs (.cmdSpeed baud) (.cmdSpeed (BitVec.ofNat 32 baud))) ∧
  (∀ fw hw, VersionOk fw → VersionOk hw →
    ComesBackAs (.cmdVersion fw hw) (.cmdVersion (versionValue fw) (versionValue hw))) ∧
  (∀ counts : List Nat, counts.length ∈ [1, 2, 4] → (∀ c ∈ counts, 1 ≤ c ∧ c ≤ 256) →
    ComesBackAs (.cmdModes counts) (.cmdModes (counts.map (BitVec.ofNat 9))))

/-- RAW, PCT, SI, MAPPING on byte values and FORMAT come back as they were sent, for every logical mode
0 to 15 and every 32-bit pattern. FORMAT's encoder returns the two flags with the frame, and no other
kind's does. -/
def Obligations.InfoRoundTrip : Prop :=
  (∀ mode, mode ≤ 15 →
    (∀ lo hi, ComesBackAs (.infoRaw mode lo hi) (.infoRaw (BitVec.ofNat 4 mode) lo hi)) ∧
    (∀ lo hi, ComesBackAs (.infoPct mode lo hi) (.infoPct (BitVec.ofNat 4 mode) lo hi)) ∧
    (∀ lo hi, ComesBackAs (.infoSi mode lo hi) (.infoSi (BitVec.ofNat 4 mode) lo hi)) ∧
    (∀ i o, i ≤ 255 → o ≤ 255 →
      ComesBackAs (.infoMapping mode (some (.byteValue i)) (some (.byteValue o)))
        (.infoMapping (BitVec.ofNat 4 mode) (BitVec.ofNat 8 i) (BitVec.ofNat 8 o))) ∧
    (∀ ds df fig dec, ds ≤ 255 → df ≤ 255 → fig ≤ 255 → dec ≤ 255 →
      ComesBackAs (.infoFormat mode ds df fig dec)
        (formatMsg (BitVec.ofNat 4 mode) (BitVec.ofNat 8 ds) (BitVec.ofNat 8 df) (BitVec.ofNat 8 fig)
          (BitVec.ofNat 8 dec)) ∧
      ∃ b, buildMsg (.infoFormat mode ds df fig dec) = .ok b ∧
        b.sizeViolation = decide (df ≤ 3 ∧ 32 < ds * formatSize df) ∧
        b.formatReserved = decide (3 < df))) ∧
  (∀ spec b, buildMsg spec = .ok b → b.sizeViolation = true ∨ b.formatReserved = true →
    ∃ mode ds df fig dec, spec = .infoFormat mode ds df fig dec)

/-- NAME and UNITS come back as they were sent: every plain text of 0 to 11 bytes, and every text of 2 to
5 bytes with a flags suffix. -/
def Obligations.TextRoundTrip : Prop :=
  ∀ mode, mode ≤ 15 → ∀ text, AsciiText text →
    (text.length ≤ 11 →
      ComesBackAs (.infoName mode text none) (.infoName (BitVec.ofNat 4 mode) text none) ∧
      ComesBackAs (.infoUnits mode text none) (.infoUnits (BitVec.ofNat 4 mode) text none)) ∧
    (∀ fl : List Byte, fl.length = 6 → 2 ≤ text.length → text.length ≤ 5 →
      ComesBackAs (.infoName mode text (some fl)) (.infoName (BitVec.ofNat 4 mode) text (some fl)) ∧
      ComesBackAs (.infoUnits mode text (some fl)) (.infoUnits (BitVec.ofNat 4 mode) text (some fl)))

/-- The raw kinds come back followed by the pad bytes of their size class, and by none when their length
is a power of two. -/
def Obligations.RawKindsRoundTrip : Prop :=
  ∀ raw : List Byte, 1 ≤ raw.length → raw.length ≤ 32 →
    ∃ p, PaddedTo raw p ∧
      ComesBackAs (.cmdSelect raw) (.cmdSelect p) ∧ ComesBackAs (.cmdWrite raw) (.cmdWrite p) ∧
      ComesBackAs (.cmdUnk1 raw) (.cmdUnk1 p) ∧ ComesBackAs (.cmdExtMode raw) (.cmdExtMode p) ∧
      (∀ mode, mode ≤ 7 → ComesBackAs (.data mode raw) (.data (BitVec.ofNat 3 mode) p)) ∧
      ((∃ n, raw.length = 2 ^ n) → p = raw)

/-- Where the round trip fails: MODES with three fields decodes to four, the last being 1; a text of 0 or
1 bytes with a flags suffix decodes to a plain text with the flag bytes inside. -/
def Obligations.RoundTripFailures : Prop :=
  (∀ a b c, 1 ≤ a → a ≤ 256 → 1 ≤ b → b ≤ 256 → 1 ≤ c → c ≤ 256 →
    ComesBackAs (.cmdModes [a, b, c])
      (.cmdModes [BitVec.ofNat 9 a, BitVec.ofNat 9 b, BitVec.ofNat 9 c, 1])) ∧
  (∀ mode text (fl : List Byte), mode ≤ 15 → AsciiText text → text.length ≤ 1 → fl.length = 6 →
    ∃ t k, t ++ List.replicate k 0 = text ++ 0 :: fl ++ List.replicate (1 - text.length) 0 ∧
      t.getLast? ≠ some 0 ∧
      ComesBackAs (.infoName mode text (some fl)) (.infoName (BitVec.ofNat 4 mode) t none) ∧
      ComesBackAs (.infoUnits mode text (some fl)) (.infoUnits (BitVec.ofNat 4 mode) t none))

/-- What a build refuses for its own operands, and with which condition when several apply: a value out of
range first, then a missing flag field, then a text too long, then a payload length. That order is
45_tx_encoder.md R252's. Where a logical mode above 15 stands beside a bad text or a bad flags suffix, and
where a bad MAPPING operand stands beside a missing one, the pseudocode of 42_info.md R173 and R188 tests
in another order: following R252 there is the model's choice, DEDUCED (notes/assumptions/12.md). -/
def Obligations.EncodeRefusalsInOrder : Prop :=
  (∀ b, 64 ≤ b → buildMsg (.sys b) = .error .fieldOutOfRange) ∧
  (∀ t, 255 < t → buildMsg (.cmdType t) = .error .fieldOutOfRange) ∧
  (∀ baud, 2 ^ 32 ≤ baud → buildMsg (.cmdSpeed baud) = .error .fieldOutOfRange) ∧
  (∀ counts : List Nat, (counts = [] ∨ 4 < counts.length ∨ ∃ c ∈ counts, c = 0 ∨ 256 < c) →
    buildMsg (.cmdModes counts) = .error .fieldOutOfRange) ∧
  (∀ fw hw, ¬ (VersionOk fw ∧ VersionOk hw) →
    buildMsg (.cmdVersion fw hw) = .error .fieldOutOfRange) ∧
  (∀ raw : List Byte, raw.length = 0 ∨ 32 < raw.length → ∀ mode,
    buildMsg (.cmdSelect raw) = .error (.sizeOutOfRange raw.length) ∧
    buildMsg (.cmdWrite raw) = .error (.sizeOutOfRange raw.length) ∧
    buildMsg (.cmdUnk1 raw) = .error (.sizeOutOfRange raw.length) ∧
    buildMsg (.cmdExtMode raw) = .error (.sizeOutOfRange raw.length) ∧
    (mode ≤ 7 → buildMsg (.data mode raw) = .error (.sizeOutOfRange raw.length))) ∧
  (∀ mode raw, 7 < mode → buildMsg (.data mode raw) = .error .fieldOutOfRange) ∧
  (∀ mode, 15 < mode → ∀ lo hi, buildMsg (.infoRaw mode lo hi) = .error .fieldOutOfRange ∧
    buildMsg (.infoPct mode lo hi) = .error .fieldOutOfRange ∧
    buildMsg (.infoSi mode lo hi) = .error .fieldOutOfRange) ∧
  (∀ mode ds df fig dec, 15 < mode ∨ 255 < ds ∨ 255 < df ∨ 255 < fig ∨ 255 < dec →
    buildMsg (.infoFormat mode ds df fig dec) = .error .fieldOutOfRange) ∧
  (∀ (mode : Nat) (words : List Nat),
    ((15 < mode ∨ words = [] ∨ ∃ w ∈ words, 0xFFFF < w) →
      buildMsg (.infoModeCombos mode words) = .error .fieldOutOfRange) ∧
    (mode ≤ 15 → (∀ w ∈ words, w ≤ 0xFFFF) → 16 < words.length →
      buildMsg (.infoModeCombos mode words) = .error (.sizeOutOfRange (2 * words.length)))) ∧
  (∀ mode text flags,
    ((15 < mode ∨ ¬ AsciiText text) →
      buildMsg (.infoName mode text flags) = .error .fieldOutOfRange ∧
      buildMsg (.infoUnits mode text flags) = .error .fieldOutOfRange) ∧
    (mode ≤ 15 → AsciiText text → (∃ fl, flags = some fl ∧ fl.length ≠ 6) →
      buildMsg (.infoName mode text flags) = .error .missingFlagField ∧
      buildMsg (.infoUnits mode text flags) = .error .missingFlagField) ∧
    (mode ≤ 15 → AsciiText text →
      (flags = none ∧ 12 ≤ text.length ∨ ∃ fl, flags = some fl ∧ fl.length = 6 ∧ 6 ≤ text.length) →
      buildMsg (.infoName mode text flags) = .error .textTooLong ∧
      buildMsg (.infoUnits mode text flags) = .error .textTooLong)) ∧
  (∀ mode input output,
    ((15 < mode ∨ BadFlagArg input ∨ BadFlagArg output) →
      buildMsg (.infoMapping mode input output) = .error .fieldOutOfRange) ∧
    (mode ≤ 15 → ¬ BadFlagArg input → ¬ BadFlagArg output → input = none ∨ output = none →
      buildMsg (.infoMapping mode input output) = .error .missingFlagField))

/-- MODE_COMBOS: the decoded set is the union of the words sent; the decoded words are those sent followed
by zero words, and by none when their number is a power of two. -/
def Obligations.ModeCombosRoundTrip : Prop :=
  ∀ (mode : Nat) (words : List Nat), mode ≤ 15 → 1 ≤ words.length → words.length ≤ 16 →
    (∀ w ∈ words, w ≤ 0xFFFF) →
    ∃ (j : Nat) (modes : List LogicalMode),
      ComesBackAs (.infoModeCombos mode words)
        (.infoModeCombos (BitVec.ofNat 4 mode) (words.map (BitVec.ofNat 16) ++ List.replicate j 0) modes) ∧
      (∀ k, k ∈ modes ↔ ∃ w ∈ words, w.testBit k.toNat = true) ∧
      ((∃ n, words.length = 2 ^ n) → j = 0)

/-- MAPPING by names: each name of 42_info.md R187 stands for its bit, in the byte's names and in the
operand's byte alike; the built message comes back with the two bytes, and its encoder returns the
ambiguous-name flag exactly when "N/A" was given in either set; no other kind's encoder returns it. -/
def Obligations.MappingByNames : Prop :=
  (∀ b : Byte,
    (MappingName.null ∈ namesOf b ↔ b.getLsbD 7 = true) ∧
    (MappingName.funcMapping2 ∈ namesOf b ↔ b.getLsbD 6 = true) ∧
    (MappingName.absolute ∈ namesOf b ↔ b.getLsbD 4 = true) ∧
    (MappingName.relative ∈ namesOf b ↔ b.getLsbD 3 = true) ∧
    (MappingName.discrete ∈ namesOf b ↔ b.getLsbD 2 = true) ∧
    (MappingName.notApplicable ∈ namesOf b ↔ b.getLsbD 0 = true) ∧
    ∀ spelling, MappingName.other spelling ∉ namesOf b) ∧
  (∀ x, ¬ BadFlagArg (some x) → FlagByteOf x (flagByte x).1 (flagByte x).2) ∧
  (∀ ns : List MappingName, ¬ BadFlagArg (some (.names ns)) →
    ∀ n, n ∈ namesOf (flagByte (.names ns)).1 ↔ n ∈ ns) ∧
  (∀ mode i o, mode ≤ 15 → ¬ BadFlagArg (some i) → ¬ BadFlagArg (some o) →
    ∃ (bi bo : Byte) (ai ao : Bool) (b : Built), FlagByteOf i bi ai ∧ FlagByteOf o bo ao ∧
      buildMsg (.infoMapping mode (some i) (some o)) = .ok b ∧ b.ambiguousName = (ai || ao) ∧
      ComesBackAs (.infoMapping mode (some i) (some o))
        (.infoMapping (BitVec.ofNat 4 mode) bi bo)) ∧
  (∀ spec b, buildMsg spec = .ok b → b.ambiguousName = true →
    ∃ mode i o, spec = .infoMapping mode i o)

/-- What a query is encoded to. One frame: the bytes of its message's build, or its condition, never
marked multi-part, an EXT_MODE frame included. A write: the DATA frame, or the EXT_MODE frame followed by
the DATA frame. A query is marked multi-part exactly when it is a write to a mode of 8 or more or in the
two-part form. -/
def Obligations.WriteQueryBytes : Prop :=
  (∀ (cfg : Cfg) (spec : MsgSpec),
    (∀ b, buildMsg spec = .ok b → encodeQuery cfg (.frame spec) = .ok ⟨b.bytes, false⟩) ∧
    (∀ c, buildMsg spec = .error c → encodeQuery cfg (.frame spec) = .error c)) ∧
  (∀ (cfg : Cfg) (raw : List Byte), 1 ≤ raw.length → raw.length ≤ 32 →
    ∃ f, buildFrame (.cmd 6) raw = .ok f ∧
      encodeQuery cfg (.frame (.cmdExtMode raw)) = .ok ⟨f, false⟩) ∧
  (∀ (cfg : Cfg) (q : Query) (eq : EncodedQuery), encodeQuery cfg q = .ok eq →
    (eq.multipart = true ↔ ∃ mode raw two, q = .write mode raw two ∧ (8 ≤ mode ∨ two = true))) ∧
  (∀ (cfg : Cfg) (mode : Nat) (raw : List Byte) (two : Bool),
    mode ≤ 15 → 1 ≤ raw.length → raw.length ≤ 32 →
    ∃ f2, buildFrame (.data (mode % 8)) raw = .ok f2 ∧
      (8 ≤ mode → encodeQuery cfg (.write mode raw two) =
        .ok ⟨[0x46, cfg.extHi, 0xFF ^^^ 0x46 ^^^ cfg.extHi] ++ f2, true⟩) ∧
      (mode < 8 → two = true → encodeQuery cfg (.write mode raw two) =
        .ok ⟨[0x46, cfg.extLo, 0xFF ^^^ 0x46 ^^^ cfg.extLo] ++ f2, true⟩) ∧
      (mode < 8 → two = false → encodeQuery cfg (.write mode raw two) = .ok ⟨f2, false⟩)) ∧
  (∀ (cfg : Cfg) (mode : Nat) (raw : List Byte) (two : Bool), 15 < mode →
    encodeQuery cfg (.write mode raw two) = .error .fieldOutOfRange) ∧
  (∀ (cfg : Cfg) (mode : Nat) (raw : List Byte) (two : Bool), mode ≤ 15 →
    raw.length = 0 ∨ 32 < raw.length →
    encodeQuery cfg (.write mode raw two) = .error (.sizeOutOfRange raw.length))

/-! ### What each message kind does when its frame is complete

Each says the whole next state: the record delivered (or held), the report of a checksum fault, and that
every other register, the payload buffer included, is unchanged. -/

/-- SYS is delivered, never with a checksum fault. -/
def Obligations.SysCompletes : Prop :=
  ∀ sizeBits code s, exec (.sys sizeBits code) s = .next (delivered (sysRecord sizeBits code) [] s)

/-- CMD.TYPE: one byte is the device-type id; any other length gives the marker. -/
def Obligations.CmdTypeCompletes : Prop :=
  (∀ sc v chk s, exec (.cmdType sc [v] chk) s =
    .next (delivered (cmdRecord 0 sc [v] chk s.rxAcc (.cmdType v)) (checksumReport chk s.rxAcc) s)) ∧
  (∀ sc p chk s, p.length ≠ 1 → exec (.cmdType sc p chk) s =
    .next (delivered (cmdRecord 0 sc p chk s.rxAcc (.malformed .cmdType p))
      (checksumReport chk s.rxAcc) s))

/-- CMD.MODES: 1, 2 or 4 counts, each byte plus one; any other length gives the marker. -/
def Obligations.CmdModesCompletes : Prop :=
  (∀ sc (p : List Byte) chk s, p.length ∈ [1, 2, 4] → exec (.cmdModes sc p chk) s =
    .next (delivered (cmdRecord 1 sc p chk s.rxAcc
      (.cmdModes (p.map fun b => BitVec.ofNat 9 (b.toNat + 1)))) (checksumReport chk s.rxAcc) s)) ∧
  (∀ sc (p : List Byte) chk s, p.length ∉ [1, 2, 4] → exec (.cmdModes sc p chk) s =
    .next (delivered (cmdRecord 1 sc p chk s.rxAcc (.malformed .cmdModes p))
      (checksumReport chk s.rxAcc) s))

/-- CMD.SPEED: a little-endian 32-bit baud rate, which does not touch `active_baud`; any other length
gives the marker. -/
def Obligations.CmdSpeedCompletes : Prop :=
  (∀ sc (b0 b1 b2 b3 : Byte) chk s, exec (.cmdSpeed sc [b0, b1, b2, b3] chk) s =
    .next (delivered (cmdRecord 2 sc [b0, b1, b2, b3] chk s.rxAcc (.cmdSpeed (b3 ++ b2 ++ b1 ++ b0)))
      (checksumReport chk s.rxAcc) s)) ∧
  (∀ sc p chk s, p.length ≠ 4 → exec (.cmdSpeed sc p chk) s =
    .next (delivered (cmdRecord 2 sc p chk s.rxAcc (.malformed .cmdSpeed p))
      (checksumReport chk s.rxAcc) s))

/-- CMD.SELECT, CMD.WRITE and CMD.UNK1: the payload is kept as received, at any length. -/
def Obligations.CmdOpaqueKindsComplete : Prop :=
  ∀ sc p chk s,
    exec (.cmdSelect sc p chk) s = .next (delivered (cmdRecord 3 sc p chk s.rxAcc (.cmdSelect p))
      (checksumReport chk s.rxAcc) s) ∧
    exec (.cmdWrite sc p chk) s = .next (delivered (cmdRecord 4 sc p chk s.rxAcc (.cmdWrite p))
      (checksumReport chk s.rxAcc) s) ∧
    exec (.cmdUnk1 sc p chk) s = .next (delivered (cmdRecord 5 sc p chk s.rxAcc (.cmdUnk1 p))
      (checksumReport chk s.rxAcc) s)

/-- CMD.EXT_MODE: with no frame held it is held and nothing is delivered, whatever its checksum; with one
held it is delivered as that frame's companion. -/
def Obligations.CmdExtModeCompletes : Prop :=
  (∀ sc p chk s, s.extHold = none → exec (.cmdExtMode sc p chk) s =
    .next (held (cmdRecord 6 sc p chk s.rxAcc (.cmdExtMode p)) (checksumReport chk s.rxAcc) s)) ∧
  (∀ sc p chk s, s.extHold ≠ none → exec (.cmdExtMode sc p chk) s =
    .next (delivered (cmdRecord 6 sc p chk s.rxAcc (.cmdExtMode p)) (checksumReport chk s.rxAcc) s))

/-- CMD.VERSION: two records of a 16-bit build, a bugfix byte and two nibbles; any other length gives the
marker. -/
def Obligations.CmdVersionCompletes : Prop :=
  (∀ sc (a0 a1 a2 a3 b0 b1 b2 b3 : Byte) chk s,
    exec (.cmdVersion sc [a0, a1, a2, a3, b0, b1, b2, b3] chk) s =
      .next (delivered (cmdRecord 7 sc [a0, a1, a2, a3, b0, b1, b2, b3] chk s.rxAcc
        (.cmdVersion
          ⟨BitVec.ofNat 4 (a3.toNat / 16), BitVec.ofNat 4 (a3.toNat % 16), a2, a1 ++ a0⟩
          ⟨BitVec.ofNat 4 (b3.toNat / 16), BitVec.ofNat 4 (b3.toNat % 16), b2, b1 ++ b0⟩))
        (checksumReport chk s.rxAcc) s)) ∧
  (∀ sc p chk s, p.length ≠ 8 → exec (.cmdVersion sc p chk) s =
    .next (delivered (cmdRecord 7 sc p chk s.rxAcc (.malformed .cmdVersion p))
      (checksumReport chk s.rxAcc) s))

/-- INFO.NAME and INFO.UNITS: every payload decodes, to the text and flags of the text decoder. -/
def Obligations.InfoTextKindsComplete : Prop :=
  ∀ sc wire plus8 p chk s, ∃ text flags, TextOf p text flags ∧
    exec (.infoName sc wire plus8 p chk) s =
      .next (delivered (infoRecord 0x00 sc wire plus8 p chk s.rxAcc
        (.infoName (BitVec.ofNat 4 (modeNumber wire plus8)) text flags)) (checksumReport chk s.rxAcc) s) ∧
    exec (.infoUnits sc wire plus8 p chk) s =
      .next (delivered (infoRecord 0x04 sc wire plus8 p chk s.rxAcc
        (.infoUnits (BitVec.ofNat 4 (modeNumber wire plus8)) text flags)) (checksumReport chk s.rxAcc) s)

/-- INFO.RAW, INFO.PCT and INFO.SI: two little-endian 32-bit patterns, carried bit for bit; any other
length gives the marker of its own kind. -/
def Obligations.InfoRangeKindsComplete : Prop :=
  (∀ sc wire plus8 (a0 a1 a2 a3 b0 b1 b2 b3 chk : Byte) s,
    let p := [a0, a1, a2, a3, b0, b1, b2, b3]
    let lo := a3 ++ a2 ++ a1 ++ a0
    let hi := b3 ++ b2 ++ b1 ++ b0
    let mode : LogicalMode := BitVec.ofNat 4 (modeNumber wire plus8)
    exec (.infoRaw sc wire plus8 p chk) s = .next (delivered
      (infoRecord 0x01 sc wire plus8 p chk s.rxAcc (.infoRaw mode lo hi)) (checksumReport chk s.rxAcc) s) ∧
    exec (.infoPct sc wire plus8 p chk) s = .next (delivered
      (infoRecord 0x02 sc wire plus8 p chk s.rxAcc (.infoPct mode lo hi)) (checksumReport chk s.rxAcc) s) ∧
    exec (.infoSi sc wire plus8 p chk) s = .next (delivered
      (infoRecord 0x03 sc wire plus8 p chk s.rxAcc (.infoSi mode lo hi)) (checksumReport chk s.rxAcc) s)) ∧
  (∀ sc wire plus8 (p : List Byte) chk s, p.length ≠ 8 →
    exec (.infoRaw sc wire plus8 p chk) s = .next (delivered
      (infoRecord 0x01 sc wire plus8 p chk s.rxAcc (.malformed .infoRaw p)) (checksumReport chk s.rxAcc) s) ∧
    exec (.infoPct sc wire plus8 p chk) s = .next (delivered
      (infoRecord 0x02 sc wire plus8 p chk s.rxAcc (.malformed .infoPct p)) (checksumReport chk s.rxAcc) s) ∧
    exec (.infoSi sc wire plus8 p chk) s = .next (delivered
      (infoRecord 0x03 sc wire plus8 p chk s.rxAcc (.malformed .infoSi p)) (checksumReport chk s.rxAcc) s))

/-- INFO.MAPPING: two flag bytes, every bit kept; any other length gives the marker. -/
def Obligations.InfoMappingCompletes : Prop :=
  (∀ sc wire plus8 i o chk s, exec (.infoMapping sc wire plus8 [i, o] chk) s =
    .next (delivered (infoRecord 0x05 sc wire plus8 [i, o] chk s.rxAcc
      (.infoMapping (BitVec.ofNat 4 (modeNumber wire plus8)) i o)) (checksumReport chk s.rxAcc) s)) ∧
  (∀ sc wire plus8 p chk s, p.length ≠ 2 → exec (.infoMapping sc wire plus8 p chk) s =
    .next (delivered (infoRecord 0x05 sc wire plus8 p chk s.rxAcc (.malformed .infoMapping p))
      (checksumReport chk s.rxAcc) s))

/-- INFO.MODE_COMBOS: the little-endian words, and the set of mode numbers asserted in some word; a
payload of one byte gives the marker. 42_info.md R192 gives a set: that it is held as an ascending list,
each member once, is the model's choice (DESIGN CHOICE, notes/assumptions/21.md). -/
def Obligations.InfoModeCombosCompletes : Prop :=
  (∀ sc wire plus8 (p : List Byte) chk s, p.length ≠ 1 →
    ∃ (words : List (BitVec 16)) (modes : List LogicalMode),
      words.length = p.length / 2 ∧
      (∀ i, i < p.length / 2 → words[i]? = some (p.getD (2 * i + 1) 0 ++ p.getD (2 * i) 0)) ∧
      (∀ k, k ∈ modes ↔ ∃ w ∈ words, w.getLsbD k.toNat = true) ∧ modes.Pairwise (· < ·) ∧
      exec (.infoModeCombos sc wire plus8 p chk) s =
        .next (delivered (infoRecord 0x06 sc wire plus8 p chk s.rxAcc
          (.infoModeCombos (BitVec.ofNat 4 (modeNumber wire plus8)) words modes))
          (checksumReport chk s.rxAcc) s)) ∧
  (∀ sc wire plus8 (b chk : Byte) s, exec (.infoModeCombos sc wire plus8 [b] chk) s =
    .next (delivered (infoRecord 0x06 sc wire plus8 [b] chk s.rxAcc (.malformed .infoModeCombos [b]))
      (checksumReport chk s.rxAcc) s))

/-- INFO.FORMAT: the four bytes as they are, with the size and reserved-format flags; any other length
gives the marker. -/
def Obligations.InfoFormatCompletes : Prop :=
  (∀ sc wire plus8 ds df fig dec chk s, exec (.infoFormat sc wire plus8 [ds, df, fig, dec] chk) s =
    .next (delivered (infoRecord 0x80 sc wire plus8 [ds, df, fig, dec] chk s.rxAcc
      (formatMsg (BitVec.ofNat 4 (modeNumber wire plus8)) ds df fig dec))
      (checksumReport chk s.rxAcc) s)) ∧
  (∀ sc wire plus8 p chk s, p.length ≠ 4 → exec (.infoFormat sc wire plus8 p chk) s =
    .next (delivered (infoRecord 0x80 sc wire plus8 p chk s.rxAcc (.malformed .infoFormat p))
      (checksumReport chk s.rxAcc) s))

/-- INFO.UNSUPPORTED: the marker, delivered like any other frame, for every subtype id. -/
def Obligations.InfoUnsupportedCompletes : Prop :=
  ∀ sc wire plus8 id p chk s, exec (.infoUnsupported sc wire plus8 id p chk) s =
    .next (delivered (infoRecord id sc wire plus8 p chk s.rxAcc
      (.unsupported (BitVec.ofNat 4 (modeNumber wire plus8)) id p)) (checksumReport chk s.rxAcc) s)

/-- DATA: the wire mode and the payload as received; a held EXT_MODE frame goes with it. -/
def Obligations.DataCompletes : Prop :=
  ∀ sc wire p chk s, exec (.data sc wire p chk) s =
    .next (delivered (dataRecord sc wire p chk s.rxAcc (.data wire p)) (checksumReport chk s.rxAcc) s)

/-- The nineteen meanings are the dispatcher by number: every well-formed instruction gives the frame
record of its bytes. -/
def Obligations.ExecIsDispatchByNumber : Prop :=
  ∀ (i : Instr) (s : State), i.wf = true →
    exec i s = .next (onFrame (frameRecord (rawOf i) s.rxAcc)
      (reportChecksum (frameRecord (rawOf i) s.rxAcc) s))

/-! ### The decoder in the machine -/

/-- A step runs the decoded instruction: when the next byte completes the bytes of instruction `i`, the
step is `exec i` with the byte counted and the decoder back at a frame boundary, then the scheduler. -/
def Obligations.StepRunsDecodedFrame : Prop :=
  ∀ (s : State) (b : Byte) (now : Nat) (rest : List Input) (i : Instr),
    NextEvent s (.rx b) now rest → s.phase = .active → s.rxState = .idle ∨ s.rxState = .chk →
    decode (s.frameBytes b) = .ok (i, []) →
    ∃ t, exec i { s with inputs := rest, rxPos := s.rxPos + 1, rxState := .idle } = .next t ∧
      step s = .next (sched now t)

/-- The byte-serial machine and the pure function agree on every byte sequence. -/
def Obligations.ByteSerialAgreesWithPure : Prop :=
  ∀ (bs : List Byte) (s : State), fsRun bs (fsReset s) = some (decodeStream bs)

/-- Feeding the bytes of a well-formed instruction from a frame boundary: no byte but the last completes a
frame, the last completes that instruction, `rx_pos` advances by the total size, and the decoder is back
at a boundary. -/
def Obligations.FrameAdvancesByItsSize : Prop :=
  ∀ (i : Instr) (s : State), i.wf = true → s.rxState = .idle →
    ∃ (first : List Byte) (last : Byte) (t : State), encode i = first ++ [last] ∧
      (∀ k, k < first.length →
        (fsByte (first.getD k 0) (feedDecoder (first.take k) s)).1 = .pending) ∧
      fsByte last (feedDecoder first s) = (.complete i, t) ∧
      t.rxPos = s.rxPos + (first.length + 1) ∧ t.rxState = .idle

/-! ### Invariants -/

/-- The reset state meets both invariants. -/
def Obligations.ResetMeetsInvariants : Prop := DecoderInv State.reset ∧ SessionInv State.reset

/-- Every step keeps the decoder's registers standing for a position inside a frame. -/
def Obligations.StepKeepsDecoderInv : Prop :=
  ∀ s s', DecoderInv s → step s = .next s' → DecoderInv s'

/-- Every step keeps the session registers as their phase has them. That a session's configuration is
well-formed follows from 10_state.md R24 and R25 with the model's choices that `cfg` is a field of State
(notes/assumptions/3.md) and that an ill-formed one at a start, and a write of it in a session, are
refused (notes/assumptions/10.md); the bounds of `hs_buf` and `hs_left` are those of 46_session.md R283,
R286 and R288. -/
def Obligations.StepKeepsSessionInv : Prop :=
  ∀ s s', SessionInv s → step s = .next s' → SessionInv s'

/-- From a state whose decoder registers stand for a position, a step completes, or refuses a start with
an ill-formed configuration or a configuration write in a session; it never faults. -/
def Obligations.StepCompletesOrRefusesConfig : Prop :=
  ∀ s, DecoderInv s →
    (∃ s', step s = .next s') ∨
    (step s = .refused .illFormedConfig ∧ s.phase = .disconnected ∧
      ¬ WellFormedCfg s.tickNs s.cfg ∧ ∃ now rest, NextEvent s .start now rest) ∨
    (step s = .refused .configInSession ∧ s.phase ≠ .disconnected ∧
      ∃ c rest, s.inputs = .configure c :: rest)

/-- Registers that hold no defined value reach nothing a host can see: two states that differ only in them
stay so, step after step, with the same outputs. -/
def Obligations.UndefinedRegistersReachNoOutput : Prop :=
  ∀ a b a', DecoderInv a → SameToHost a b → step a = .next a' →
    ∃ b', step b = .next b' ∧ SameToHost a' b'

/-! ### The session engine, event by event -/

/-- `EvReset` in every phase: the reset values of the registers that have one, no output, the
configuration untouched. -/
def Obligations.ResetEvent : Prop :=
  ∀ s now rest, NextEvent s .reset now rest →
    ∃ s', step s = .next s' ∧ s'.phase = .disconnected ∧ s'.multipartPending = false ∧
      s'.pendingQuery = none ∧ s'.extHold = none ∧ s'.hsStep = .capture ∧ s'.hsBuf = [] ∧
      s'.hsLeft = 0 ∧ s'.rxState = .idle ∧ s'.rxPos = 0 ∧ s'.rxCnt = 0 ∧ s'.rxAcc = 0xFF ∧
      s'.cfg = s.cfg ∧ s'.tickNs = s.tickNs ∧ s'.outputs = s.outputs ∧ s'.inputs = rest

/-- `EvStart` in `Disconnected` opens the transport and begins the handshake (46_session.md R283). With an
ill-formed configuration it is refused: the model's choice of a stop, DEDUCED from 10_state.md R25
(notes/assumptions/10.md). -/
def Obligations.StartEvent : Prop :=
  (∀ s now rest, NextEvent s .start now rest → s.phase = .disconnected →
    WellFormedCfg s.tickNs s.cfg →
    step s = .next { s with
      inputs := rest
      activeBaud := s.cfg.handshakeBaud
      outputs := s.outputs ++ [.openTransport s.cfg.handshakeBaud]
      hsLeft := s.cfg.hsAttempts
      hsBuf := []
      hsStep := .capture
      phase := .handshaking }) ∧
  (∀ s now rest, NextEvent s .start now rest → s.phase = .disconnected →
    ¬ WellFormedCfg s.tickNs s.cfg → step s = .refused .illFormedConfig)

/-- In `Disconnected` transport events are ignored and a query is rejected. -/
def Obligations.DisconnectedEvents : Prop :=
  (∀ s ev now rest, NextEvent s ev now rest → s.phase = .disconnected →
    (∃ b, ev = .rx b) ∨ ev = .idle ∨ ev = .closed → step s = .next { s with inputs := rest }) ∧
  (∀ s q now rest, NextEvent s (.submit q) now rest → s.phase = .disconnected →
    step s = .next { s with inputs := rest, outputs := s.outputs ++ [.reject .notActive] })

/-- A byte captured in the handshake: stored until the blob has its full length; then the ACK and the
settle delay if it equals the reference, else a retry or the fatal end. -/
def Obligations.HandshakeCapture : Prop :=
  ∀ s b now rest, NextEvent s (.rx b) now rest → s.phase = .handshaking → s.hsStep = .capture →
    let buf := s.hsBuf ++ [b]
    (buf.length ≠ s.cfg.refBlob.length → step s = .next { s with inputs := rest, hsBuf := buf }) ∧
    (buf = s.cfg.refBlob → step s = .next { s with
      inputs := rest
      outputs := s.outputs ++ [.tx [s.cfg.sysAck]]
      hsBuf := []
      hsStep := .settle
      settleDeadline := now + s.cfg.settleDelay }) ∧
    (buf.length = s.cfg.refBlob.length → buf ≠ s.cfg.refBlob → 2 ≤ s.hsLeft → step s = .next { s with
      inputs := rest
      outputs := s.outputs ++ [.report (.handshakeMismatch (s.hsLeft - 1))]
      hsLeft := s.hsLeft - 1
      hsBuf := [] }) ∧
    (buf.length = s.cfg.refBlob.length → buf ≠ s.cfg.refBlob → s.hsLeft ≤ 1 →
      ∃ s', step s = .next s' ∧ s'.rxPos = s.rxPos ∧
        EntersDisconnected s s' rest [.report .deviceNotFound, .closeTransport])

/-- The events of the handshake that capture nothing. A read timeout is a mismatch while capturing and
nothing while settling; a byte in the settle delay is discarded; a start and a query are rejected; a
closed transport is fatal, without closing it again. -/
def Obligations.HandshakeOtherEvents : Prop :=
  ∀ s now rest, s.phase = .handshaking → s.hsStep = .capture ∨ now < s.settleDeadline →
    (NextEvent s .idle now rest → s.hsStep = .capture → 2 ≤ s.hsLeft → step s = .next { s with
      inputs := rest
      outputs := s.outputs ++ [.report (.handshakeMismatch (s.hsLeft - 1))]
      hsLeft := s.hsLeft - 1
      hsBuf := [] }) ∧
    (NextEvent s .idle now rest → s.hsStep = .capture → s.hsLeft ≤ 1 →
      ∃ s', step s = .next s' ∧ s'.rxPos = s.rxPos ∧
        EntersDisconnected s s' rest [.report .deviceNotFound, .closeTransport]) ∧
    (NextEvent s .idle now rest → s.hsStep = .settle → step s = .next { s with inputs := rest }) ∧
    (∀ b, NextEvent s (.rx b) now rest → s.hsStep = .settle →
      step s = .next { s with inputs := rest }) ∧
    (NextEvent s .start now rest → step s = .next { s with
      inputs := rest, outputs := s.outputs ++ [.reject .alreadyStarted] }) ∧
    (∀ q, NextEvent s (.submit q) now rest → step s = .next { s with
      inputs := rest, outputs := s.outputs ++ [.reject .notActive] }) ∧
    (NextEvent s .closed now rest → ∃ s', step s = .next s' ∧ s'.rxPos = s.rxPos ∧
      EntersDisconnected s s' rest [.report .transportClosed])

/-- The settle delay ends at the first event whose time is at least the deadline: the step is the one the
activated state takes with the same event. -/
def Obligations.ActivationBeforeTheEvent : Prop :=
  ∀ s ev now rest, NextEvent s ev now rest → ev ≠ .reset → s.phase = .handshaking →
    s.hsStep = .settle → s.settleDeadline ≤ now →
    step s = step { s with
      activeBaud := s.cfg.productionBaud
      outputs := s.outputs ++ [.setBaud s.cfg.productionBaud]
      rxState := .idle
      rxPos := 0
      rxCnt := 0
      rxAcc := 0xFF
      multipartPending := false
      extHold := none
      pendingQuery := none
      lastKeepaliveTime := now
      lastQueryTime := now
      phase := .active }

/-- The fatal conditions of `Active`, and the timeout that is none: a closed transport, a timeout inside a
frame, a reserved size class; a timeout at a frame boundary only runs the scheduler. That the report of a
reserved size class carries the header byte is the model's choice, DEDUCED from 60_exceptions.md R332
(notes/assumptions/14.md). -/
def Obligations.ActiveFatalEvents : Prop :=
  ∀ s now rest, s.phase = .active →
    (NextEvent s .closed now rest → ∃ s', step s = .next s' ∧ s'.rxPos = s.rxPos ∧
      EntersDisconnected s s' rest [.report .transportClosed]) ∧
    (NextEvent s .idle now rest → s.rxState ≠ .idle → ∃ s', step s = .next s' ∧ s'.rxPos = s.rxPos ∧
      EntersDisconnected s s' rest [.report .peerDisconnect, .closeTransport]) ∧
    (NextEvent s .idle now rest → s.rxState = .idle →
      step s = .next (sched now { s with inputs := rest })) ∧
    (∀ b : Byte, NextEvent s (.rx b) now rest → s.rxState = .idle → 64 ≤ b.toNat →
      6 ≤ b.toNat / 8 % 8 → ∃ s', step s = .next s' ∧ s'.rxPos = s.rxPos + 1 ∧
        EntersDisconnected s s' rest [.report (.reservedSizeClass b), .closeTransport])

/-- The bytes inside a frame in `Active`: the header, the subtype byte and each payload byte are latched,
then the scheduler runs. -/
def Obligations.ActiveFrameBytes : Prop :=
  ∀ s (b : Byte) now rest, NextEvent s (.rx b) now rest → s.phase = .active →
    (s.rxState = .idle → 64 ≤ b.toNat → b.toNat / 8 % 8 < 6 → step s = .next (sched now { s with
      inputs := rest
      rxPos := s.rxPos + 1
      rxHdr := b
      rxAcc := 0xFF ^^^ b
      rxLen := BitVec.ofNat 6 (2 ^ (b.toNat / 8 % 8))
      rxCnt := 0
      rxState := if b.toNat / 64 = 2 then .sub else .pay })) ∧
    (s.rxState = .sub → step s = .next (sched now { s with
      inputs := rest
      rxPos := s.rxPos + 1
      rxSub := b
      rxAcc := s.rxAcc ^^^ b
      rxState := .pay })) ∧
    (s.rxState = .pay → s.rxCnt.toNat < 32 → step s = .next (sched now { s with
      inputs := rest
      rxPos := s.rxPos + 1
      rxBuf := s.rxBuf.setIfInBounds s.rxCnt.toNat b
      rxCnt := s.rxCnt + 1
      rxAcc := s.rxAcc ^^^ b
      rxState := if s.rxCnt + 1 = s.rxLen then .chk else .pay }))

/-- Host events in `Active`: a start is rejected; a query is rejected when one waits, else encoded at
once and either rejected with its condition or put in the slot. Each is followed by the scheduler. -/
def Obligations.ActiveHostEvents : Prop :=
  ∀ s now rest, s.phase = .active →
    (NextEvent s .start now rest → step s = .next (sched now { s with
      inputs := rest, outputs := s.outputs ++ [.reject .alreadyStarted] })) ∧
    (∀ q, NextEvent s (.submit q) now rest → s.pendingQuery ≠ none → step s = .next (sched now { s with
      inputs := rest, outputs := s.outputs ++ [.reject .queryBusy] })) ∧
    (∀ q c, NextEvent s (.submit q) now rest → s.pendingQuery = none → encodeQuery s.cfg q = .error c →
      step s = .next (sched now { s with inputs := rest, outputs := s.outputs ++ [.reject c] })) ∧
    (∀ q eq, NextEvent s (.submit q) now rest → s.pendingQuery = none → encodeQuery s.cfg q = .ok eq →
      step s = .next (sched now { s with inputs := rest, pendingQuery := some eq }))

/-- The two tests of the scheduler, in their order. -/
def Obligations.SchedulerTests : Prop :=
  ∀ now s,
    sched now s = sendQuery now (keepAlive now s) ∧
    (s.cfg.keepaliveInterval ≤ now - s.lastKeepaliveTime → keepAlive now s =
      { s with outputs := s.outputs ++ [.tx [s.cfg.sysKeepalive]], lastKeepaliveTime := now }) ∧
    (now - s.lastKeepaliveTime < s.cfg.keepaliveInterval → keepAlive now s = s) ∧
    (∀ q, s.pendingQuery = some q → s.multipartPending = false →
      s.cfg.minQuerySpacing ≤ now - s.lastQueryTime → sendQuery now s =
        { s with outputs := s.outputs ++ [.tx q.bytes], lastQueryTime := now, pendingQuery := none,
                 multipartPending := q.multipart }) ∧
    (s.pendingQuery = none ∨ s.multipartPending = true ∨
      now - s.lastQueryTime < s.cfg.minQuerySpacing → sendQuery now s = s)

/-! ### Whole-machine rules -/

/-- A query never leaves while a multi-part exchange is open: a waiting query that is gone after a step
in `Active` left after a delivery in that step. -/
def Obligations.NoQueryWhileMultipart : Prop :=
  ∀ s s' q, step s = .next s' → s.phase = .active → s.multipartPending = true →
    s.pendingQuery = some q →
    ∃ new, Produced s s' new ∧
      (s'.phase = .active → s'.pendingQuery = some q ∨ ∃ d, .deliver d ∈ new) ∧
      ((∀ d, .deliver d ∉ new) → s'.phase = .active → s'.multipartPending = true ∧
        ∀ bs, .tx bs ∈ new → bs = [s.cfg.sysKeepalive])

/-- A query that leaves does so at least the query spacing after the one before it, and the timer is set
to that moment. -/
def Obligations.QuerySpacingKept : Prop :=
  ∀ s s' q ev now rest, NextEvent s ev now rest → step s = .next s' → s.phase = .active →
    s.pendingQuery = some q → s'.phase = .active → s'.pendingQuery = none →
    s.cfg.minQuerySpacing ≤ now - s.lastQueryTime ∧ s'.lastQueryTime = now ∧
    ∃ new, Produced s s' new ∧ .tx q.bytes ∈ new

/-- The keep-alive is never late by more than the gap between events: when each event comes at most `g`
after the one before, a step that stays in `Active` and re-arms the timer sends the byte, at most the
interval and `g` after the last; and the premise about the timer holds again after the step. -/
def Obligations.KeepAliveGapBounded : Prop :=
  ∀ s s' ev now rest (t g : Nat), NextEvent s ev now rest → step s = .next s' →
    s.phase = .active → s'.phase = .active →
    s.lastKeepaliveTime ≤ t → t ≤ now → now ≤ t + g →
    (t = s.lastKeepaliveTime ∨ t - s.lastKeepaliveTime < s.cfg.keepaliveInterval) →
    s'.lastKeepaliveTime ≤ now ∧
    (now = s'.lastKeepaliveTime ∨ now - s'.lastKeepaliveTime < s'.cfg.keepaliveInterval) ∧
    (s'.lastKeepaliveTime ≠ s.lastKeepaliveTime →
      now - s.lastKeepaliveTime ≤ s.cfg.keepaliveInterval + g ∧
      ∃ new, Produced s s' new ∧ .tx [s.cfg.sysKeepalive] ∈ new)

/-- The only way out of `Disconnected` is a start, into `Handshaking`; the only way into `Active` is
activation after the settle delay. -/
def Obligations.PhaseEntries : Prop :=
  ∀ s s', step s = .next s' →
    (s.phase = .disconnected → s'.phase ≠ .disconnected → s'.phase = .handshaking ∧
      WellFormedCfg s.tickNs s.cfg ∧ ∃ now rest, NextEvent s .start now rest) ∧
    (s.phase ≠ .active → s'.phase = .active → s.phase = .handshaking ∧ s.hsStep = .settle ∧
      ∃ ev now rest new, NextEvent s ev now rest ∧ s.settleDeadline ≤ now ∧ Produced s s' new ∧
        new.head? = some (.setBaud s.cfg.productionBaud))

/-- Outputs are only appended; a report is a fault or a fatal condition and a reject a reject; one step has
at most one report or reject, so that a condition is reported once; a fatal report and leaving for
`Disconnected` other than by a reset go together. -/
def Obligations.ConditionDiscipline : Prop :=
  ∀ s s', step s = .next s' → ∃ new, Produced s s' new ∧
    (∀ c, .report c ∈ new → classOf c = .fatal ∨ classOf c = .fault) ∧
    (∀ c, .reject c ∈ new → classOf c = .reject) ∧
    (conditionsIn new).length ≤ 1 ∧
    (∀ c, .report c ∈ new → classOf c = .fatal → s.phase ≠ .disconnected ∧ s'.phase = .disconnected) ∧
    (s.phase ≠ .disconnected → s'.phase = .disconnected →
      (∃ now rest, NextEvent s .reset now rest) ∨ ∃ c, .report c ∈ new ∧ classOf c = .fatal)

/-- What the block transmits and delivers in each phase: nothing in `Disconnected`; only the ACK in
`Handshaking`; keep-alives and queries in `Active`; nothing in a step that ends in `Disconnected`; frames
are delivered only from `Active`. -/
def Obligations.TransmitByPhase : Prop :=
  ∀ s s', step s = .next s' → ∃ new, Produced s s' new ∧
    (∀ bs, .tx bs ∈ new → s'.phase ≠ .disconnected) ∧
    (∀ bs, .tx bs ∈ new → s'.phase = .handshaking →
      bs = [s.cfg.sysAck] ∧ s.hsStep = .capture ∧ s'.hsStep = .settle) ∧
    (∀ bs, .tx bs ∈ new → s'.phase = .active → bs = [s.cfg.sysKeepalive] ∨
      (∃ q, s.pendingQuery = some q ∧ bs = q.bytes) ∨
      ∃ q eq now rest, NextEvent s (.submit q) now rest ∧ encodeQuery s.cfg q = .ok eq ∧ bs = eq.bytes) ∧
    (∀ d, .deliver d ∈ new → s'.phase = .active ∧ ∃ b now rest, NextEvent s (.rx b) now rest)

/-- Who writes the configuration object, the tick and `active_baud`: the host, in `Disconnected`; nobody;
and, besides a reset, only the rules that tell the transport. The host's write replaces the object and
changes nothing else; outside `Disconnected` it is refused; with no input the block waits, unchanged. That
the write is an input, that it is refused in a session, and that a step with no input changes nothing, are
the model's choices (notes/assumptions/1.md, 3.md, 10.md), as is the tick in State (4.md). -/
def Obligations.ConfigAndBaudWriters : Prop :=
  (∀ s c rest, s.inputs = .configure c :: rest →
    (s.phase = .disconnected → step s = .next { s with inputs := rest, cfg := c }) ∧
    (s.phase ≠ .disconnected → step s = .refused .configInSession)) ∧
  (∀ s, s.inputs = [] → step s = .next s) ∧
  (∀ s s', step s = .next s' →
    s'.tickNs = s.tickNs ∧
    (s'.cfg = s.cfg ∨
      (s.phase = .disconnected ∧ ∃ c rest, s.inputs = .configure c :: rest ∧ s'.cfg = c)) ∧
    (s'.activeBaud = s.activeBaud ∨ (∃ now rest, NextEvent s .reset now rest) ∨
      ∃ new, Produced s s' new ∧
        (.openTransport s'.activeBaud ∈ new ∨ .setBaud s'.activeBaud ∈ new)))

/-- In `Active` every received byte advances `rx_pos` by one and nothing else but a reset moves it. -/
def Obligations.ReceivedByteIsCounted : Prop :=
  ∀ s s' ev now rest, NextEvent s ev now rest → ev ≠ .reset → s.phase = .active → step s = .next s' →
    ((∃ b, ev = .rx b) → s'.rxPos = s.rxPos + 1) ∧ ((∀ b, ev ≠ .rx b) → s'.rxPos = s.rxPos)
end

