-- ==== Sys2Proof/Laws/State.lean ====
section
/-! SUPPORT. One lemma per field per update of the state, so that no proof unfolds a record update. -/

namespace Sys2Proof.Machine

/-! ### `emit` -/

@[simp] theorem emit_phase (a : Action) (s : State) : (emit a s).phase = s.phase := rfl
@[simp] theorem emit_lastKeepaliveTime (a : Action) (s : State) : (emit a s).lastKeepaliveTime = s.lastKeepaliveTime := rfl
@[simp] theorem emit_lastQueryTime (a : Action) (s : State) : (emit a s).lastQueryTime = s.lastQueryTime := rfl
@[simp] theorem emit_multipartPending (a : Action) (s : State) : (emit a s).multipartPending = s.multipartPending := rfl
@[simp] theorem emit_activeBaud (a : Action) (s : State) : (emit a s).activeBaud = s.activeBaud := rfl
@[simp] theorem emit_hsStep (a : Action) (s : State) : (emit a s).hsStep = s.hsStep := rfl
@[simp] theorem emit_hsBuf (a : Action) (s : State) : (emit a s).hsBuf = s.hsBuf := rfl
@[simp] theorem emit_hsLeft (a : Action) (s : State) : (emit a s).hsLeft = s.hsLeft := rfl
@[simp] theorem emit_settleDeadline (a : Action) (s : State) : (emit a s).settleDeadline = s.settleDeadline := rfl
@[simp] theorem emit_pendingQuery (a : Action) (s : State) : (emit a s).pendingQuery = s.pendingQuery := rfl
@[simp] theorem emit_extHold (a : Action) (s : State) : (emit a s).extHold = s.extHold := rfl
@[simp] theorem emit_rxHdr (a : Action) (s : State) : (emit a s).rxHdr = s.rxHdr := rfl
@[simp] theorem emit_rxSub (a : Action) (s : State) : (emit a s).rxSub = s.rxSub := rfl
@[simp] theorem emit_rxBuf (a : Action) (s : State) : (emit a s).rxBuf = s.rxBuf := rfl
@[simp] theorem emit_rxLen (a : Action) (s : State) : (emit a s).rxLen = s.rxLen := rfl
@[simp] theorem emit_rxCnt (a : Action) (s : State) : (emit a s).rxCnt = s.rxCnt := rfl
@[simp] theorem emit_rxAcc (a : Action) (s : State) : (emit a s).rxAcc = s.rxAcc := rfl
@[simp] theorem emit_rxPos (a : Action) (s : State) : (emit a s).rxPos = s.rxPos := rfl
@[simp] theorem emit_rxState (a : Action) (s : State) : (emit a s).rxState = s.rxState := rfl
@[simp] theorem emit_cfg (a : Action) (s : State) : (emit a s).cfg = s.cfg := rfl
@[simp] theorem emit_tickNs (a : Action) (s : State) : (emit a s).tickNs = s.tickNs := rfl
@[simp] theorem emit_inputs (a : Action) (s : State) : (emit a s).inputs = s.inputs := rfl
@[simp] theorem emit_outputs (a : Action) (s : State) : (emit a s).outputs = s.outputs ++ [a] := rfl
@[simp] theorem emit_freeCount (a : Action) (s : State) : (emit a s).freeCount = s.freeCount := rfl

/-! ### `rejectEvent` -/

@[simp] theorem rejectEvent_phase (c : Condition) (s : State) : (rejectEvent c s).phase = s.phase := rfl
@[simp] theorem rejectEvent_lastKeepaliveTime (c : Condition) (s : State) : (rejectEvent c s).lastKeepaliveTime = s.lastKeepaliveTime := rfl
@[simp] theorem rejectEvent_lastQueryTime (c : Condition) (s : State) : (rejectEvent c s).lastQueryTime = s.lastQueryTime := rfl
@[simp] theorem rejectEvent_multipartPending (c : Condition) (s : State) : (rejectEvent c s).multipartPending = s.multipartPending := rfl
@[simp] theorem rejectEvent_activeBaud (c : Condition) (s : State) : (rejectEvent c s).activeBaud = s.activeBaud := rfl
@[simp] theorem rejectEvent_hsStep (c : Condition) (s : State) : (rejectEvent c s).hsStep = s.hsStep := rfl
@[simp] theorem rejectEvent_hsBuf (c : Condition) (s : State) : (rejectEvent c s).hsBuf = s.hsBuf := rfl
@[simp] theorem rejectEvent_hsLeft (c : Condition) (s : State) : (rejectEvent c s).hsLeft = s.hsLeft := rfl
@[simp] theorem rejectEvent_settleDeadline (c : Condition) (s : State) : (rejectEvent c s).settleDeadline = s.settleDeadline := rfl
@[simp] theorem rejectEvent_pendingQuery (c : Condition) (s : State) : (rejectEvent c s).pendingQuery = s.pendingQuery := rfl
@[simp] theorem rejectEvent_extHold (c : Condition) (s : State) : (rejectEvent c s).extHold = s.extHold := rfl
@[simp] theorem rejectEvent_rxHdr (c : Condition) (s : State) : (rejectEvent c s).rxHdr = s.rxHdr := rfl
@[simp] theorem rejectEvent_rxSub (c : Condition) (s : State) : (rejectEvent c s).rxSub = s.rxSub := rfl
@[simp] theorem rejectEvent_rxBuf (c : Condition) (s : State) : (rejectEvent c s).rxBuf = s.rxBuf := rfl
@[simp] theorem rejectEvent_rxLen (c : Condition) (s : State) : (rejectEvent c s).rxLen = s.rxLen := rfl
@[simp] theorem rejectEvent_rxCnt (c : Condition) (s : State) : (rejectEvent c s).rxCnt = s.rxCnt := rfl
@[simp] theorem rejectEvent_rxAcc (c : Condition) (s : State) : (rejectEvent c s).rxAcc = s.rxAcc := rfl
@[simp] theorem rejectEvent_rxPos (c : Condition) (s : State) : (rejectEvent c s).rxPos = s.rxPos := rfl
@[simp] theorem rejectEvent_rxState (c : Condition) (s : State) : (rejectEvent c s).rxState = s.rxState := rfl
@[simp] theorem rejectEvent_cfg (c : Condition) (s : State) : (rejectEvent c s).cfg = s.cfg := rfl
@[simp] theorem rejectEvent_tickNs (c : Condition) (s : State) : (rejectEvent c s).tickNs = s.tickNs := rfl
@[simp] theorem rejectEvent_inputs (c : Condition) (s : State) : (rejectEvent c s).inputs = s.inputs := rfl
@[simp] theorem rejectEvent_outputs (c : Condition) (s : State) : (rejectEvent c s).outputs = s.outputs ++ [.reject c] := rfl
@[simp] theorem rejectEvent_freeCount (c : Condition) (s : State) : (rejectEvent c s).freeCount = s.freeCount := rfl

/-! ### `resetRegisters` -/

@[simp] theorem resetRegisters_phase (s : State) : (resetRegisters s).phase = .disconnected := rfl
@[simp] theorem resetRegisters_lastKeepaliveTime (s : State) : (resetRegisters s).lastKeepaliveTime = Config.freeLastKeepaliveTime s.freeCount := rfl
@[simp] theorem resetRegisters_lastQueryTime (s : State) : (resetRegisters s).lastQueryTime = Config.freeLastQueryTime s.freeCount := rfl
@[simp] theorem resetRegisters_multipartPending (s : State) : (resetRegisters s).multipartPending = false := rfl
@[simp] theorem resetRegisters_activeBaud (s : State) : (resetRegisters s).activeBaud = Config.freeActiveBaud s.freeCount := rfl
@[simp] theorem resetRegisters_hsStep (s : State) : (resetRegisters s).hsStep = .capture := rfl
@[simp] theorem resetRegisters_hsBuf (s : State) : (resetRegisters s).hsBuf = [] := rfl
@[simp] theorem resetRegisters_hsLeft (s : State) : (resetRegisters s).hsLeft = 0 := rfl
@[simp] theorem resetRegisters_settleDeadline (s : State) : (resetRegisters s).settleDeadline = Config.freeSettleDeadline s.freeCount := rfl
@[simp] theorem resetRegisters_pendingQuery (s : State) : (resetRegisters s).pendingQuery = none := rfl
@[simp] theorem resetRegisters_extHold (s : State) : (resetRegisters s).extHold = none := rfl
@[simp] theorem resetRegisters_rxHdr (s : State) : (resetRegisters s).rxHdr = Config.freeRxHdr s.freeCount := rfl
@[simp] theorem resetRegisters_rxSub (s : State) : (resetRegisters s).rxSub = Config.freeRxSub s.freeCount := rfl
@[simp] theorem resetRegisters_rxBuf (s : State) : (resetRegisters s).rxBuf = Config.freeRxBuf s.freeCount := rfl
@[simp] theorem resetRegisters_rxLen (s : State) : (resetRegisters s).rxLen = Config.freeRxLen s.freeCount := rfl
@[simp] theorem resetRegisters_rxCnt (s : State) : (resetRegisters s).rxCnt = 0 := rfl
@[simp] theorem resetRegisters_rxAcc (s : State) : (resetRegisters s).rxAcc = 0xFF := rfl
@[simp] theorem resetRegisters_rxPos (s : State) : (resetRegisters s).rxPos = 0 := rfl
@[simp] theorem resetRegisters_rxState (s : State) : (resetRegisters s).rxState = .idle := rfl
@[simp] theorem resetRegisters_cfg (s : State) : (resetRegisters s).cfg = s.cfg := rfl
@[simp] theorem resetRegisters_tickNs (s : State) : (resetRegisters s).tickNs = s.tickNs := rfl
@[simp] theorem resetRegisters_inputs (s : State) : (resetRegisters s).inputs = s.inputs := rfl
@[simp] theorem resetRegisters_outputs (s : State) : (resetRegisters s).outputs = s.outputs := rfl
@[simp] theorem resetRegisters_freeCount (s : State) : (resetRegisters s).freeCount = s.freeCount + 1 := rfl

/-! ### `enterDisconnected` -/

@[simp] theorem enterDisconnected_phase (s : State) : (enterDisconnected s).phase = .disconnected := rfl
@[simp] theorem enterDisconnected_lastKeepaliveTime (s : State) : (enterDisconnected s).lastKeepaliveTime = s.lastKeepaliveTime := rfl
@[simp] theorem enterDisconnected_lastQueryTime (s : State) : (enterDisconnected s).lastQueryTime = s.lastQueryTime := rfl
@[simp] theorem enterDisconnected_multipartPending (s : State) : (enterDisconnected s).multipartPending = false := rfl
@[simp] theorem enterDisconnected_activeBaud (s : State) : (enterDisconnected s).activeBaud = s.activeBaud := rfl
@[simp] theorem enterDisconnected_hsStep (s : State) : (enterDisconnected s).hsStep = .capture := rfl
@[simp] theorem enterDisconnected_hsBuf (s : State) : (enterDisconnected s).hsBuf = [] := rfl
@[simp] theorem enterDisconnected_hsLeft (s : State) : (enterDisconnected s).hsLeft = 0 := rfl
@[simp] theorem enterDisconnected_settleDeadline (s : State) : (enterDisconnected s).settleDeadline = s.settleDeadline := rfl
@[simp] theorem enterDisconnected_pendingQuery (s : State) : (enterDisconnected s).pendingQuery = none := rfl
@[simp] theorem enterDisconnected_extHold (s : State) : (enterDisconnected s).extHold = none := rfl
@[simp] theorem enterDisconnected_rxHdr (s : State) : (enterDisconnected s).rxHdr = Config.freeRxHdr s.freeCount := rfl
@[simp] theorem enterDisconnected_rxSub (s : State) : (enterDisconnected s).rxSub = Config.freeRxSub s.freeCount := rfl
@[simp] theorem enterDisconnected_rxBuf (s : State) : (enterDisconnected s).rxBuf = Config.freeRxBuf s.freeCount := rfl
@[simp] theorem enterDisconnected_rxLen (s : State) : (enterDisconnected s).rxLen = Config.freeRxLen s.freeCount := rfl
@[simp] theorem enterDisconnected_rxCnt (s : State) : (enterDisconnected s).rxCnt = 0 := rfl
@[simp] theorem enterDisconnected_rxAcc (s : State) : (enterDisconnected s).rxAcc = 0xFF := rfl
@[simp] theorem enterDisconnected_rxPos (s : State) : (enterDisconnected s).rxPos = s.rxPos := rfl
@[simp] theorem enterDisconnected_rxState (s : State) : (enterDisconnected s).rxState = .idle := rfl
@[simp] theorem enterDisconnected_cfg (s : State) : (enterDisconnected s).cfg = s.cfg := rfl
@[simp] theorem enterDisconnected_tickNs (s : State) : (enterDisconnected s).tickNs = s.tickNs := rfl
@[simp] theorem enterDisconnected_inputs (s : State) : (enterDisconnected s).inputs = s.inputs := rfl
@[simp] theorem enterDisconnected_outputs (s : State) : (enterDisconnected s).outputs = s.outputs := rfl
@[simp] theorem enterDisconnected_freeCount (s : State) : (enterDisconnected s).freeCount = s.freeCount + 1 := rfl

/-! ### `fatal` -/

@[simp] theorem fatal_phase (c : Condition) (s : State) : (fatal c s).phase = .disconnected := rfl
@[simp] theorem fatal_lastKeepaliveTime (c : Condition) (s : State) : (fatal c s).lastKeepaliveTime = s.lastKeepaliveTime := rfl
@[simp] theorem fatal_lastQueryTime (c : Condition) (s : State) : (fatal c s).lastQueryTime = s.lastQueryTime := rfl
@[simp] theorem fatal_multipartPending (c : Condition) (s : State) : (fatal c s).multipartPending = false := rfl
@[simp] theorem fatal_activeBaud (c : Condition) (s : State) : (fatal c s).activeBaud = s.activeBaud := rfl
@[simp] theorem fatal_hsStep (c : Condition) (s : State) : (fatal c s).hsStep = .capture := rfl
@[simp] theorem fatal_hsBuf (c : Condition) (s : State) : (fatal c s).hsBuf = [] := rfl
@[simp] theorem fatal_hsLeft (c : Condition) (s : State) : (fatal c s).hsLeft = 0 := rfl
@[simp] theorem fatal_settleDeadline (c : Condition) (s : State) : (fatal c s).settleDeadline = s.settleDeadline := rfl
@[simp] theorem fatal_pendingQuery (c : Condition) (s : State) : (fatal c s).pendingQuery = none := rfl
@[simp] theorem fatal_extHold (c : Condition) (s : State) : (fatal c s).extHold = none := rfl
@[simp] theorem fatal_rxHdr (c : Condition) (s : State) : (fatal c s).rxHdr = Config.freeRxHdr s.freeCount := rfl
@[simp] theorem fatal_rxSub (c : Condition) (s : State) : (fatal c s).rxSub = Config.freeRxSub s.freeCount := rfl
@[simp] theorem fatal_rxBuf (c : Condition) (s : State) : (fatal c s).rxBuf = Config.freeRxBuf s.freeCount := rfl
@[simp] theorem fatal_rxLen (c : Condition) (s : State) : (fatal c s).rxLen = Config.freeRxLen s.freeCount := rfl
@[simp] theorem fatal_rxCnt (c : Condition) (s : State) : (fatal c s).rxCnt = 0 := rfl
@[simp] theorem fatal_rxAcc (c : Condition) (s : State) : (fatal c s).rxAcc = 0xFF := rfl
@[simp] theorem fatal_rxPos (c : Condition) (s : State) : (fatal c s).rxPos = s.rxPos := rfl
@[simp] theorem fatal_rxState (c : Condition) (s : State) : (fatal c s).rxState = .idle := rfl
@[simp] theorem fatal_cfg (c : Condition) (s : State) : (fatal c s).cfg = s.cfg := rfl
@[simp] theorem fatal_tickNs (c : Condition) (s : State) : (fatal c s).tickNs = s.tickNs := rfl
@[simp] theorem fatal_inputs (c : Condition) (s : State) : (fatal c s).inputs = s.inputs := rfl
@[simp] theorem fatal_outputs (c : Condition) (s : State) : (fatal c s).outputs = s.outputs ++ fatalActions c := rfl
@[simp] theorem fatal_freeCount (c : Condition) (s : State) : (fatal c s).freeCount = s.freeCount + 1 := rfl

/-! ### `blobMatched` -/

@[simp] theorem blobMatched_phase (now : Nat) (s : State) : (blobMatched now s).phase = s.phase := rfl
@[simp] theorem blobMatched_lastKeepaliveTime (now : Nat) (s : State) : (blobMatched now s).lastKeepaliveTime = s.lastKeepaliveTime := rfl
@[simp] theorem blobMatched_lastQueryTime (now : Nat) (s : State) : (blobMatched now s).lastQueryTime = s.lastQueryTime := rfl
@[simp] theorem blobMatched_multipartPending (now : Nat) (s : State) : (blobMatched now s).multipartPending = s.multipartPending := rfl
@[simp] theorem blobMatched_activeBaud (now : Nat) (s : State) : (blobMatched now s).activeBaud = s.activeBaud := rfl
@[simp] theorem blobMatched_hsStep (now : Nat) (s : State) : (blobMatched now s).hsStep = .settle := rfl
@[simp] theorem blobMatched_hsBuf (now : Nat) (s : State) : (blobMatched now s).hsBuf = [] := rfl
@[simp] theorem blobMatched_hsLeft (now : Nat) (s : State) : (blobMatched now s).hsLeft = s.hsLeft := rfl
@[simp] theorem blobMatched_settleDeadline (now : Nat) (s : State) : (blobMatched now s).settleDeadline = now + s.cfg.settleDelay := rfl
@[simp] theorem blobMatched_pendingQuery (now : Nat) (s : State) : (blobMatched now s).pendingQuery = s.pendingQuery := rfl
@[simp] theorem blobMatched_extHold (now : Nat) (s : State) : (blobMatched now s).extHold = s.extHold := rfl
@[simp] theorem blobMatched_rxHdr (now : Nat) (s : State) : (blobMatched now s).rxHdr = s.rxHdr := rfl
@[simp] theorem blobMatched_rxSub (now : Nat) (s : State) : (blobMatched now s).rxSub = s.rxSub := rfl
@[simp] theorem blobMatched_rxBuf (now : Nat) (s : State) : (blobMatched now s).rxBuf = s.rxBuf := rfl
@[simp] theorem blobMatched_rxLen (now : Nat) (s : State) : (blobMatched now s).rxLen = s.rxLen := rfl
@[simp] theorem blobMatched_rxCnt (now : Nat) (s : State) : (blobMatched now s).rxCnt = s.rxCnt := rfl
@[simp] theorem blobMatched_rxAcc (now : Nat) (s : State) : (blobMatched now s).rxAcc = s.rxAcc := rfl
@[simp] theorem blobMatched_rxPos (now : Nat) (s : State) : (blobMatched now s).rxPos = s.rxPos := rfl
@[simp] theorem blobMatched_rxState (now : Nat) (s : State) : (blobMatched now s).rxState = s.rxState := rfl
@[simp] theorem blobMatched_cfg (now : Nat) (s : State) : (blobMatched now s).cfg = s.cfg := rfl
@[simp] theorem blobMatched_tickNs (now : Nat) (s : State) : (blobMatched now s).tickNs = s.tickNs := rfl
@[simp] theorem blobMatched_inputs (now : Nat) (s : State) : (blobMatched now s).inputs = s.inputs := rfl
@[simp] theorem blobMatched_outputs (now : Nat) (s : State) : (blobMatched now s).outputs = s.outputs ++ [.tx [s.cfg.sysAck]] := rfl
@[simp] theorem blobMatched_freeCount (now : Nat) (s : State) : (blobMatched now s).freeCount = s.freeCount := rfl

/-! ### `fsReset` -/

@[simp] theorem fsReset_phase (s : State) : (fsReset s).phase = s.phase := rfl
@[simp] theorem fsReset_lastKeepaliveTime (s : State) : (fsReset s).lastKeepaliveTime = s.lastKeepaliveTime := rfl
@[simp] theorem fsReset_lastQueryTime (s : State) : (fsReset s).lastQueryTime = s.lastQueryTime := rfl
@[simp] theorem fsReset_multipartPending (s : State) : (fsReset s).multipartPending = s.multipartPending := rfl
@[simp] theorem fsReset_activeBaud (s : State) : (fsReset s).activeBaud = s.activeBaud := rfl
@[simp] theorem fsReset_hsStep (s : State) : (fsReset s).hsStep = s.hsStep := rfl
@[simp] theorem fsReset_hsBuf (s : State) : (fsReset s).hsBuf = s.hsBuf := rfl
@[simp] theorem fsReset_hsLeft (s : State) : (fsReset s).hsLeft = s.hsLeft := rfl
@[simp] theorem fsReset_settleDeadline (s : State) : (fsReset s).settleDeadline = s.settleDeadline := rfl
@[simp] theorem fsReset_pendingQuery (s : State) : (fsReset s).pendingQuery = s.pendingQuery := rfl
@[simp] theorem fsReset_extHold (s : State) : (fsReset s).extHold = s.extHold := rfl
@[simp] theorem fsReset_rxHdr (s : State) : (fsReset s).rxHdr = s.rxHdr := rfl
@[simp] theorem fsReset_rxSub (s : State) : (fsReset s).rxSub = s.rxSub := rfl
@[simp] theorem fsReset_rxBuf (s : State) : (fsReset s).rxBuf = s.rxBuf := rfl
@[simp] theorem fsReset_rxLen (s : State) : (fsReset s).rxLen = s.rxLen := rfl
@[simp] theorem fsReset_rxCnt (s : State) : (fsReset s).rxCnt = 0 := rfl
@[simp] theorem fsReset_rxAcc (s : State) : (fsReset s).rxAcc = 0xFF := rfl
@[simp] theorem fsReset_rxPos (s : State) : (fsReset s).rxPos = 0 := rfl
@[simp] theorem fsReset_rxState (s : State) : (fsReset s).rxState = .idle := rfl
@[simp] theorem fsReset_cfg (s : State) : (fsReset s).cfg = s.cfg := rfl
@[simp] theorem fsReset_tickNs (s : State) : (fsReset s).tickNs = s.tickNs := rfl
@[simp] theorem fsReset_inputs (s : State) : (fsReset s).inputs = s.inputs := rfl
@[simp] theorem fsReset_outputs (s : State) : (fsReset s).outputs = s.outputs := rfl
@[simp] theorem fsReset_freeCount (s : State) : (fsReset s).freeCount = s.freeCount := rfl

/-! ### `activate` -/

@[simp] theorem activate_phase (now : Nat) (s : State) : (activate now s).phase = .active := rfl
@[simp] theorem activate_lastKeepaliveTime (now : Nat) (s : State) : (activate now s).lastKeepaliveTime = now := rfl
@[simp] theorem activate_lastQueryTime (now : Nat) (s : State) : (activate now s).lastQueryTime = now := rfl
@[simp] theorem activate_multipartPending (now : Nat) (s : State) : (activate now s).multipartPending = false := rfl
@[simp] theorem activate_activeBaud (now : Nat) (s : State) : (activate now s).activeBaud = s.cfg.productionBaud := rfl
@[simp] theorem activate_hsStep (now : Nat) (s : State) : (activate now s).hsStep = s.hsStep := rfl
@[simp] theorem activate_hsBuf (now : Nat) (s : State) : (activate now s).hsBuf = s.hsBuf := rfl
@[simp] theorem activate_hsLeft (now : Nat) (s : State) : (activate now s).hsLeft = s.hsLeft := rfl
@[simp] theorem activate_settleDeadline (now : Nat) (s : State) : (activate now s).settleDeadline = s.settleDeadline := rfl
@[simp] theorem activate_pendingQuery (now : Nat) (s : State) : (activate now s).pendingQuery = none := rfl
@[simp] theorem activate_extHold (now : Nat) (s : State) : (activate now s).extHold = none := rfl
@[simp] theorem activate_rxHdr (now : Nat) (s : State) : (activate now s).rxHdr = s.rxHdr := rfl
@[simp] theorem activate_rxSub (now : Nat) (s : State) : (activate now s).rxSub = s.rxSub := rfl
@[simp] theorem activate_rxBuf (now : Nat) (s : State) : (activate now s).rxBuf = s.rxBuf := rfl
@[simp] theorem activate_rxLen (now : Nat) (s : State) : (activate now s).rxLen = s.rxLen := rfl
@[simp] theorem activate_rxCnt (now : Nat) (s : State) : (activate now s).rxCnt = 0 := rfl
@[simp] theorem activate_rxAcc (now : Nat) (s : State) : (activate now s).rxAcc = 0xFF := rfl
@[simp] theorem activate_rxPos (now : Nat) (s : State) : (activate now s).rxPos = 0 := rfl
@[simp] theorem activate_rxState (now : Nat) (s : State) : (activate now s).rxState = .idle := rfl
@[simp] theorem activate_cfg (now : Nat) (s : State) : (activate now s).cfg = s.cfg := rfl
@[simp] theorem activate_tickNs (now : Nat) (s : State) : (activate now s).tickNs = s.tickNs := rfl
@[simp] theorem activate_inputs (now : Nat) (s : State) : (activate now s).inputs = s.inputs := rfl
@[simp] theorem activate_outputs (now : Nat) (s : State) : (activate now s).outputs = s.outputs ++ [.setBaud s.cfg.productionBaud] := rfl
@[simp] theorem activate_freeCount (now : Nat) (s : State) : (activate now s).freeCount = s.freeCount := rfl

/-! ### `takeByte` -/

@[simp] theorem takeByte_phase (s : State) : (takeByte s).phase = s.phase := rfl
@[simp] theorem takeByte_lastKeepaliveTime (s : State) : (takeByte s).lastKeepaliveTime = s.lastKeepaliveTime := rfl
@[simp] theorem takeByte_lastQueryTime (s : State) : (takeByte s).lastQueryTime = s.lastQueryTime := rfl
@[simp] theorem takeByte_multipartPending (s : State) : (takeByte s).multipartPending = s.multipartPending := rfl
@[simp] theorem takeByte_activeBaud (s : State) : (takeByte s).activeBaud = s.activeBaud := rfl
@[simp] theorem takeByte_hsStep (s : State) : (takeByte s).hsStep = s.hsStep := rfl
@[simp] theorem takeByte_hsBuf (s : State) : (takeByte s).hsBuf = s.hsBuf := rfl
@[simp] theorem takeByte_hsLeft (s : State) : (takeByte s).hsLeft = s.hsLeft := rfl
@[simp] theorem takeByte_settleDeadline (s : State) : (takeByte s).settleDeadline = s.settleDeadline := rfl
@[simp] theorem takeByte_pendingQuery (s : State) : (takeByte s).pendingQuery = s.pendingQuery := rfl
@[simp] theorem takeByte_extHold (s : State) : (takeByte s).extHold = s.extHold := rfl
@[simp] theorem takeByte_rxHdr (s : State) : (takeByte s).rxHdr = s.rxHdr := rfl
@[simp] theorem takeByte_rxSub (s : State) : (takeByte s).rxSub = s.rxSub := rfl
@[simp] theorem takeByte_rxBuf (s : State) : (takeByte s).rxBuf = s.rxBuf := rfl
@[simp] theorem takeByte_rxLen (s : State) : (takeByte s).rxLen = s.rxLen := rfl
@[simp] theorem takeByte_rxCnt (s : State) : (takeByte s).rxCnt = s.rxCnt := rfl
@[simp] theorem takeByte_rxAcc (s : State) : (takeByte s).rxAcc = s.rxAcc := rfl
@[simp] theorem takeByte_rxPos (s : State) : (takeByte s).rxPos = s.rxPos + 1 := rfl
@[simp] theorem takeByte_rxState (s : State) : (takeByte s).rxState = s.rxState := rfl
@[simp] theorem takeByte_cfg (s : State) : (takeByte s).cfg = s.cfg := rfl
@[simp] theorem takeByte_tickNs (s : State) : (takeByte s).tickNs = s.tickNs := rfl
@[simp] theorem takeByte_inputs (s : State) : (takeByte s).inputs = s.inputs := rfl
@[simp] theorem takeByte_outputs (s : State) : (takeByte s).outputs = s.outputs := rfl
@[simp] theorem takeByte_freeCount (s : State) : (takeByte s).freeCount = s.freeCount := rfl

/-! ### `latchHeader` -/

@[simp] theorem latchHeader_phase (b : Byte) (s : State) : (latchHeader b s).phase = s.phase := rfl
@[simp] theorem latchHeader_lastKeepaliveTime (b : Byte) (s : State) : (latchHeader b s).lastKeepaliveTime = s.lastKeepaliveTime := rfl
@[simp] theorem latchHeader_lastQueryTime (b : Byte) (s : State) : (latchHeader b s).lastQueryTime = s.lastQueryTime := rfl
@[simp] theorem latchHeader_multipartPending (b : Byte) (s : State) : (latchHeader b s).multipartPending = s.multipartPending := rfl
@[simp] theorem latchHeader_activeBaud (b : Byte) (s : State) : (latchHeader b s).activeBaud = s.activeBaud := rfl
@[simp] theorem latchHeader_hsStep (b : Byte) (s : State) : (latchHeader b s).hsStep = s.hsStep := rfl
@[simp] theorem latchHeader_hsBuf (b : Byte) (s : State) : (latchHeader b s).hsBuf = s.hsBuf := rfl
@[simp] theorem latchHeader_hsLeft (b : Byte) (s : State) : (latchHeader b s).hsLeft = s.hsLeft := rfl
@[simp] theorem latchHeader_settleDeadline (b : Byte) (s : State) : (latchHeader b s).settleDeadline = s.settleDeadline := rfl
@[simp] theorem latchHeader_pendingQuery (b : Byte) (s : State) : (latchHeader b s).pendingQuery = s.pendingQuery := rfl
@[simp] theorem latchHeader_extHold (b : Byte) (s : State) : (latchHeader b s).extHold = s.extHold := rfl
@[simp] theorem latchHeader_rxHdr (b : Byte) (s : State) : (latchHeader b s).rxHdr = b := rfl
@[simp] theorem latchHeader_rxSub (b : Byte) (s : State) : (latchHeader b s).rxSub = s.rxSub := rfl
@[simp] theorem latchHeader_rxBuf (b : Byte) (s : State) : (latchHeader b s).rxBuf = s.rxBuf := rfl
@[simp] theorem latchHeader_rxLen (b : Byte) (s : State) : (latchHeader b s).rxLen = 1#6 <<< (sizeField b).toNat := rfl
@[simp] theorem latchHeader_rxCnt (b : Byte) (s : State) : (latchHeader b s).rxCnt = 0 := rfl
@[simp] theorem latchHeader_rxAcc (b : Byte) (s : State) : (latchHeader b s).rxAcc = 0xFF#8 ^^^ b := rfl
@[simp] theorem latchHeader_rxPos (b : Byte) (s : State) : (latchHeader b s).rxPos = s.rxPos := rfl
@[simp] theorem latchHeader_rxState (b : Byte) (s : State) : (latchHeader b s).rxState = if categoryOf b = .info then .sub else .pay := rfl
@[simp] theorem latchHeader_cfg (b : Byte) (s : State) : (latchHeader b s).cfg = s.cfg := rfl
@[simp] theorem latchHeader_tickNs (b : Byte) (s : State) : (latchHeader b s).tickNs = s.tickNs := rfl
@[simp] theorem latchHeader_inputs (b : Byte) (s : State) : (latchHeader b s).inputs = s.inputs := rfl
@[simp] theorem latchHeader_outputs (b : Byte) (s : State) : (latchHeader b s).outputs = s.outputs := rfl
@[simp] theorem latchHeader_freeCount (b : Byte) (s : State) : (latchHeader b s).freeCount = s.freeCount := rfl

/-! ### `latchSubtype` -/

@[simp] theorem latchSubtype_phase (b : Byte) (s : State) : (latchSubtype b s).phase = s.phase := rfl
@[simp] theorem latchSubtype_lastKeepaliveTime (b : Byte) (s : State) : (latchSubtype b s).lastKeepaliveTime = s.lastKeepaliveTime := rfl
@[simp] theorem latchSubtype_lastQueryTime (b : Byte) (s : State) : (latchSubtype b s).lastQueryTime = s.lastQueryTime := rfl
@[simp] theorem latchSubtype_multipartPending (b : Byte) (s : State) : (latchSubtype b s).multipartPending = s.multipartPending := rfl
@[simp] theorem latchSubtype_activeBaud (b : Byte) (s : State) : (latchSubtype b s).activeBaud = s.activeBaud := rfl
@[simp] theorem latchSubtype_hsStep (b : Byte) (s : State) : (latchSubtype b s).hsStep = s.hsStep := rfl
@[simp] theorem latchSubtype_hsBuf (b : Byte) (s : State) : (latchSubtype b s).hsBuf = s.hsBuf := rfl
@[simp] theorem latchSubtype_hsLeft (b : Byte) (s : State) : (latchSubtype b s).hsLeft = s.hsLeft := rfl
@[simp] theorem latchSubtype_settleDeadline (b : Byte) (s : State) : (latchSubtype b s).settleDeadline = s.settleDeadline := rfl
@[simp] theorem latchSubtype_pendingQuery (b : Byte) (s : State) : (latchSubtype b s).pendingQuery = s.pendingQuery := rfl
@[simp] theorem latchSubtype_extHold (b : Byte) (s : State) : (latchSubtype b s).extHold = s.extHold := rfl
@[simp] theorem latchSubtype_rxHdr (b : Byte) (s : State) : (latchSubtype b s).rxHdr = s.rxHdr := rfl
@[simp] theorem latchSubtype_rxSub (b : Byte) (s : State) : (latchSubtype b s).rxSub = b := rfl
@[simp] theorem latchSubtype_rxBuf (b : Byte) (s : State) : (latchSubtype b s).rxBuf = s.rxBuf := rfl
@[simp] theorem latchSubtype_rxLen (b : Byte) (s : State) : (latchSubtype b s).rxLen = s.rxLen := rfl
@[simp] theorem latchSubtype_rxCnt (b : Byte) (s : State) : (latchSubtype b s).rxCnt = s.rxCnt := rfl
@[simp] theorem latchSubtype_rxAcc (b : Byte) (s : State) : (latchSubtype b s).rxAcc = s.rxAcc ^^^ b := rfl
@[simp] theorem latchSubtype_rxPos (b : Byte) (s : State) : (latchSubtype b s).rxPos = s.rxPos := rfl
@[simp] theorem latchSubtype_rxState (b : Byte) (s : State) : (latchSubtype b s).rxState = .pay := rfl
@[simp] theorem latchSubtype_cfg (b : Byte) (s : State) : (latchSubtype b s).cfg = s.cfg := rfl
@[simp] theorem latchSubtype_tickNs (b : Byte) (s : State) : (latchSubtype b s).tickNs = s.tickNs := rfl
@[simp] theorem latchSubtype_inputs (b : Byte) (s : State) : (latchSubtype b s).inputs = s.inputs := rfl
@[simp] theorem latchSubtype_outputs (b : Byte) (s : State) : (latchSubtype b s).outputs = s.outputs := rfl
@[simp] theorem latchSubtype_freeCount (b : Byte) (s : State) : (latchSubtype b s).freeCount = s.freeCount := rfl

/-! ### `latchPayload` -/

@[simp] theorem latchPayload_phase (b : Byte) (s : State) : (latchPayload b s).phase = s.phase := rfl
@[simp] theorem latchPayload_lastKeepaliveTime (b : Byte) (s : State) : (latchPayload b s).lastKeepaliveTime = s.lastKeepaliveTime := rfl
@[simp] theorem latchPayload_lastQueryTime (b : Byte) (s : State) : (latchPayload b s).lastQueryTime = s.lastQueryTime := rfl
@[simp] theorem latchPayload_multipartPending (b : Byte) (s : State) : (latchPayload b s).multipartPending = s.multipartPending := rfl
@[simp] theorem latchPayload_activeBaud (b : Byte) (s : State) : (latchPayload b s).activeBaud = s.activeBaud := rfl
@[simp] theorem latchPayload_hsStep (b : Byte) (s : State) : (latchPayload b s).hsStep = s.hsStep := rfl
@[simp] theorem latchPayload_hsBuf (b : Byte) (s : State) : (latchPayload b s).hsBuf = s.hsBuf := rfl
@[simp] theorem latchPayload_hsLeft (b : Byte) (s : State) : (latchPayload b s).hsLeft = s.hsLeft := rfl
@[simp] theorem latchPayload_settleDeadline (b : Byte) (s : State) : (latchPayload b s).settleDeadline = s.settleDeadline := rfl
@[simp] theorem latchPayload_pendingQuery (b : Byte) (s : State) : (latchPayload b s).pendingQuery = s.pendingQuery := rfl
@[simp] theorem latchPayload_extHold (b : Byte) (s : State) : (latchPayload b s).extHold = s.extHold := rfl
@[simp] theorem latchPayload_rxHdr (b : Byte) (s : State) : (latchPayload b s).rxHdr = s.rxHdr := rfl
@[simp] theorem latchPayload_rxSub (b : Byte) (s : State) : (latchPayload b s).rxSub = s.rxSub := rfl
@[simp] theorem latchPayload_rxBuf (b : Byte) (s : State) : (latchPayload b s).rxBuf = s.rxBuf.setIfInBounds s.rxCnt.toNat b := rfl
@[simp] theorem latchPayload_rxLen (b : Byte) (s : State) : (latchPayload b s).rxLen = s.rxLen := rfl
@[simp] theorem latchPayload_rxCnt (b : Byte) (s : State) : (latchPayload b s).rxCnt = s.rxCnt + 1 := rfl
@[simp] theorem latchPayload_rxAcc (b : Byte) (s : State) : (latchPayload b s).rxAcc = s.rxAcc ^^^ b := rfl
@[simp] theorem latchPayload_rxPos (b : Byte) (s : State) : (latchPayload b s).rxPos = s.rxPos := rfl
@[simp] theorem latchPayload_rxState (b : Byte) (s : State) : (latchPayload b s).rxState = if s.rxCnt + 1 = s.rxLen then .chk else .pay := rfl
@[simp] theorem latchPayload_cfg (b : Byte) (s : State) : (latchPayload b s).cfg = s.cfg := rfl
@[simp] theorem latchPayload_tickNs (b : Byte) (s : State) : (latchPayload b s).tickNs = s.tickNs := rfl
@[simp] theorem latchPayload_inputs (b : Byte) (s : State) : (latchPayload b s).inputs = s.inputs := rfl
@[simp] theorem latchPayload_outputs (b : Byte) (s : State) : (latchPayload b s).outputs = s.outputs := rfl
@[simp] theorem latchPayload_freeCount (b : Byte) (s : State) : (latchPayload b s).freeCount = s.freeCount := rfl

end Sys2Proof.Machine
end

