-- ==== Sys2Proof/Laws/Ops.lean ====
section
/-! SUPPORT. One lemma per shared operation that says everything it can do, for proofs to cite instead of
unfolding it. -/

namespace Sys2Proof.Machine

/-! ### A completed frame -/

/-- Reporting a checksum fault appends at most one report and changes nothing else. -/
theorem reportChecksum_cases (f : Frame) (s : State) :
    (reportChecksum f s = s) ∨
    ∃ rx computed, f.chkRx = some rx ∧ f.chkCalc = some computed ∧ f.chkFault = true ∧
      reportChecksum f s = emit (.report (.checksumFault rx computed)) s := by
  unfold reportChecksum
  split
  · rename_i rx computed hf hr hc
    exact .inr ⟨rx, computed, hr, hc, hf, rfl⟩
  · exact .inl rfl

/-- A completed frame is held or delivered. -/
theorem onFrame_cases (f : Frame) (s : State) :
    (s.extHold = none ∧ isExtMode f = true ∧
      onFrame f s = { s with extHold := some f, multipartPending := true }) ∨
    (¬ (s.extHold = none ∧ isExtMode f = true) ∧
      onFrame f s = { s with
        outputs := s.outputs ++ [.deliver ⟨f, s.extHold⟩], extHold := none,
        multipartPending := false }) := by
  unfold onFrame
  split
  · rename_i h; exact .inl ⟨h.1, h.2, rfl⟩
  · rename_i h; exact .inr ⟨h, rfl⟩

/-- Only an EXT_MODE frame is one that is held. -/
theorem isExtMode_iff (f : Frame) : isExtMode f = true ↔ f.cat = .cmd ∧ f.code = 6 := by
  simp [isExtMode]

/-- Every meaning is the reception of some frame record. -/
theorem exec_receive (i : Instr) (s : State) : ∃ f, exec i s = receive f s := by
  cases i <;> exact ⟨_, rfl⟩

/-- A meaning always completes: the report of a checksum fault, if any, and then the hold or delivery. -/
theorem exec_next (i : Instr) (s : State) :
    ∃ f, exec i s = .next (onFrame f (reportChecksum f s)) := by
  obtain ⟨f, h⟩ := exec_receive i s
  exact ⟨f, h⟩

/-- What a completed frame can change: two registers and the outputs. -/
theorem exec_frame (i : Instr) (s t : State) (h : exec i s = .next t) :
    ∃ new hold mp, t = { s with outputs := s.outputs ++ new, extHold := hold, multipartPending := mp } := by
  obtain ⟨f, hf⟩ := exec_next i s
  rw [hf] at h
  injection h with h
  subst h
  rcases reportChecksum_cases f s with hr | ⟨rx, c, -, -, -, hr⟩ <;> rw [hr] <;>
    rcases onFrame_cases f _ with ⟨-, -, ho⟩ | ⟨-, ho⟩ <;> rw [ho]
  · exact ⟨[], some f, true, by simp⟩
  · exact ⟨[.deliver ⟨f, s.extHold⟩], none, false, rfl⟩
  · exact ⟨[.report (.checksumFault rx c)], some f, true, rfl⟩
  · exact ⟨[.report (.checksumFault rx c), .deliver ⟨f, s.extHold⟩], none, false, by simp [emit]⟩

/-! ### The scheduler -/

/-- The keep-alive test: due or not. -/
theorem keepAlive_cases (now : Nat) (s : State) :
    (s.cfg.keepaliveInterval ≤ now - s.lastKeepaliveTime ∧ keepAlive now s = { s with
      outputs := s.outputs ++ [.tx [s.cfg.sysKeepalive]], lastKeepaliveTime := now }) ∨
    (now - s.lastKeepaliveTime < s.cfg.keepaliveInterval ∧ keepAlive now s = s) := by
  unfold keepAlive elapsed
  split
  · rename_i h; exact .inl ⟨h, rfl⟩
  · rename_i h; exact .inr ⟨by omega, rfl⟩

/-- The query test: the waiting query leaves, or nothing happens. -/
theorem sendQuery_cases (now : Nat) (s : State) :
    (∃ q, s.pendingQuery = some q ∧ s.multipartPending = false ∧
      s.cfg.minQuerySpacing ≤ now - s.lastQueryTime ∧ sendQuery now s = { s with
        outputs := s.outputs ++ [.tx q.bytes], lastQueryTime := now, pendingQuery := none,
        multipartPending := q.multipart }) ∨
    ((s.pendingQuery = none ∨ s.multipartPending = true ∨
        now - s.lastQueryTime < s.cfg.minQuerySpacing) ∧ sendQuery now s = s) := by
  unfold sendQuery elapsed
  split
  · rename_i h; exact .inr ⟨.inl h, rfl⟩
  · rename_i q h
    split
    · rename_i hc; exact .inl ⟨q, h, hc.1, hc.2, rfl⟩
    · rename_i hc
      refine .inr ⟨.inr ?_, rfl⟩
      by_cases hm : s.multipartPending = true
      · exact .inl hm
      · have hm' : s.multipartPending = false := by simpa using hm
        exact .inr (Nat.lt_of_not_le fun h2 => hc ⟨hm', h2⟩)

/-- The scheduler changes four session registers and appends transmissions. -/
theorem sched_frame (now : Nat) (s : State) :
    ∃ new ka lq pq mp, (∀ a ∈ new, ∃ bs, a = .tx bs ∧
        (bs = [s.cfg.sysKeepalive] ∨ ∃ q, s.pendingQuery = some q ∧ bs = q.bytes)) ∧
      sched now s = { s with
        outputs := s.outputs ++ new, lastKeepaliveTime := ka, lastQueryTime := lq,
        pendingQuery := pq, multipartPending := mp } := by
  unfold sched
  rcases keepAlive_cases now s with ⟨-, hk⟩ | ⟨-, hk⟩ <;> rw [hk]
  · rcases sendQuery_cases now { s with
        outputs := s.outputs ++ [.tx [s.cfg.sysKeepalive]], lastKeepaliveTime := now } with
      ⟨q, hq, -, -, hs⟩ | ⟨-, hs⟩ <;> rw [hs]
    · refine ⟨[.tx [s.cfg.sysKeepalive], .tx q.bytes], now, now, none, q.multipart, ?_, by simp⟩
      intro a ha
      simp only [List.mem_cons, List.not_mem_nil, or_false] at ha
      rcases ha with rfl | rfl
      · exact ⟨_, rfl, .inl rfl⟩
      · exact ⟨_, rfl, .inr ⟨q, hq, rfl⟩⟩
    · exact ⟨[.tx [s.cfg.sysKeepalive]], now, s.lastQueryTime, s.pendingQuery, s.multipartPending,
        by simp, rfl⟩
  · rcases sendQuery_cases now s with ⟨q, hq, -, -, hs⟩ | ⟨-, hs⟩ <;> rw [hs]
    · exact ⟨[.tx q.bytes], s.lastKeepaliveTime, now, none, q.multipart, by simp [hq], rfl⟩
    · exact ⟨[], s.lastKeepaliveTime, s.lastQueryTime, s.pendingQuery, s.multipartPending,
        by simp, by simp⟩

/-! ### Handshake -/

/-- A failed attempt: another one, or the fatal end. -/
theorem hsFail_cases (s : State) :
    (2 ≤ s.hsLeft ∧ hsFail s = { s with
      outputs := s.outputs ++ [.report (.handshakeMismatch (s.hsLeft - 1))],
      hsLeft := s.hsLeft - 1, hsBuf := [] }) ∨
    (s.hsLeft ≤ 1 ∧ hsFail s = fatal .deviceNotFound { s with hsLeft := s.hsLeft - 1, hsBuf := [] }) := by
  simp only [hsFail]
  split
  · rename_i h; exact .inl ⟨by omega, rfl⟩
  · rename_i h; exact .inr ⟨by omega, rfl⟩

/-- A captured byte: kept, the last of a match, or the last of a mismatch. -/
theorem capture_cases (b : Byte) (now : Nat) (s : State) :
    ((s.hsBuf ++ [b]).length ≠ s.cfg.refBlob.length ∧
      capture b now s = { s with hsBuf := s.hsBuf ++ [b] }) ∨
    (s.hsBuf ++ [b] = s.cfg.refBlob ∧ capture b now s = { s with
      outputs := s.outputs ++ [.tx [s.cfg.sysAck]], hsBuf := [], hsStep := .settle,
      settleDeadline := now + s.cfg.settleDelay }) ∨
    ((s.hsBuf ++ [b]).length = s.cfg.refBlob.length ∧ s.hsBuf ++ [b] ≠ s.cfg.refBlob ∧
      capture b now s = hsFail { s with hsBuf := s.hsBuf ++ [b] }) := by
  simp only [capture]
  split
  · rename_i hl
    split
    · rename_i he; exact .inr (.inl ⟨he, rfl⟩)
    · rename_i he; exact .inr (.inr ⟨hl, he, rfl⟩)
  · rename_i hl; exact .inl ⟨hl, rfl⟩

/-- The settle test: activation, or nothing. -/
theorem settleTest_cases (now : Nat) (s : State) :
    (s.phase = .handshaking ∧ s.hsStep = .settle ∧ s.settleDeadline ≤ now ∧
      settleTest now s = activate now s) ∨
    (¬ (s.phase = .handshaking ∧ s.hsStep = .settle ∧ s.settleDeadline ≤ now) ∧
      settleTest now s = s) := by
  unfold settleTest
  split
  · rename_i h; exact .inl ⟨h.1, h.2.1, h.2.2, rfl⟩
  · rename_i h; exact .inr ⟨h, rfl⟩

/-! ### The configuration object -/

/-- The test of the model is the definition of 10_state.md R25. -/
theorem cfgWellFormed_iff (tickNs : Nat) (c : Cfg) :
    cfgWellFormed tickNs c = true ↔ Safety.WellFormedCfg tickNs c := by
  have hsys : ∀ b : Byte, isSysByte b = true ↔ b.toNat < 64 := by decide
  simp only [cfgWellFormed, Bool.and_eq_true, decide_eq_true_eq, hsys, and_assoc]
  rfl

/-- A start opens the transport or is refused. -/
theorem startSession_cases (s : State) :
    (Safety.WellFormedCfg s.tickNs s.cfg ∧ startSession s = .next { s with
      outputs := s.outputs ++ [.openTransport s.cfg.handshakeBaud], activeBaud := s.cfg.handshakeBaud,
      hsLeft := s.cfg.hsAttempts, hsBuf := [], hsStep := .capture, phase := .handshaking }) ∨
    (¬ Safety.WellFormedCfg s.tickNs s.cfg ∧ startSession s = .refused .illFormedConfig) := by
  unfold startSession
  split
  · rename_i h; exact .inl ⟨(cfgWellFormed_iff _ _).1 h, rfl⟩
  · rename_i h; exact .inr ⟨fun hw => h ((cfgWellFormed_iff _ _).2 hw), rfl⟩

/-! ### The frame decoder -/

/-- A header byte: a SYS frame, a reserved size class, or the first byte of a longer frame. -/
theorem fsIdle_cases (b : Byte) (s : State) :
    (categoryOf b = .sys ∧ fsIdle b s = (.complete (.sys (sizeField b) (codeField b)), takeByte s)) ∨
    (categoryOf b ≠ .sys ∧ 6 ≤ (sizeField b).toNat ∧ fsIdle b s = (.error b, takeByte s)) ∨
    (categoryOf b ≠ .sys ∧ (sizeField b).toNat < 6 ∧
      fsIdle b s = (.pending, latchHeader b (takeByte s))) := by
  unfold fsIdle decodeHeader
  by_cases hc : categoryOf b = .sys
  · simp [hc]
  · by_cases hs : 6 ≤ (sizeField b).toNat
    · simp [hc, hs]
    · simp [hc, hs, Nat.not_le.1 hs]

/-- Every case of `FsByte` (44_frame_decoder.md R225). -/
theorem fsByte_cases (b : Byte) (s : State) :
    (s.rxState = .idle ∧ fsByte b s = fsIdle b s) ∨
    (s.rxState = .sub ∧ fsByte b s = (.pending, latchSubtype b (takeByte s))) ∨
    (s.rxState = .pay ∧ s.rxCnt.toNat < 32 ∧ fsByte b s = (.pending, latchPayload b (takeByte s))) ∨
    (s.rxState = .pay ∧ 32 ≤ s.rxCnt.toNat ∧
      fsByte b s = (.stuck (.payloadIndex s.rxCnt.toNat), s)) ∨
    (s.rxState = .chk ∧ (∃ i, decode (s.frameBytes b) = .ok (i, []) ∧
      fsByte b s = (.complete i, { takeByte s with rxState := .idle }))) ∨
    (s.rxState = .chk ∧ (∀ i, decode (s.frameBytes b) ≠ .ok (i, [])) ∧
      fsByte b s = (.stuck .frameRegisters, s)) := by
  cases hst : s.rxState
  · simp [fsByte, hst]
  · simp [fsByte, hst]
  · by_cases hc : s.rxCnt.toNat < 32
    · simp [fsByte, fsPayload, hst, hc]
    · simp [fsByte, fsPayload, hst, hc]; omega
  · simp only [fsByte, hst, fsChecksum, reduceCtorEq, false_and, false_or, true_and]
    split
    · rename_i i h
      exact .inl ⟨i, h, rfl⟩
    · rename_i h
      exact .inr ⟨fun i hi => h i hi, rfl⟩

/-! ### Queries -/

/-- A condition that an encode rule raises is a reject. -/
theorem require_error {α : Type} (ok : Bool) (c : Condition) (k : Except Condition α) (e : Condition)
    (h : require ok c k = .error e) : e = c ∨ k = .error e := by
  unfold require at h
  split at h
  · exact .inr h
  · injection h with h; exact .inl h.symm

/-- Submitting a query in `Active`: rejected, or put in the empty slot. -/
theorem submitActive_cases (q : Query) (s : State) :
    (s.pendingQuery ≠ none ∧ submitActive q s = rejectEvent .queryBusy s) ∨
    (s.pendingQuery = none ∧ ∃ c, encodeQuery s.cfg q = .error c ∧
      submitActive q s = rejectEvent c s) ∨
    (s.pendingQuery = none ∧ ∃ eq, encodeQuery s.cfg q = .ok eq ∧
      submitActive q s = { s with pendingQuery := some eq }) := by
  unfold submitActive
  split
  · rename_i x h; exact .inl ⟨by simp [h], rfl⟩
  · rename_i h
    split
    · rename_i c hc; exact .inr (.inl ⟨h, c, hc, rfl⟩)
    · rename_i eq he; exact .inr (.inr ⟨h, eq, he, rfl⟩)

/-! ### The handlers -/

/-- What a received byte does in `Active`. -/
theorem rxActive_cases (b : Byte) (s t : State) (h : rxActive b s = .next t) :
    fsByte b s = (.pending, t) ∨
    (∃ hdr u, fsByte b s = (.error hdr, u) ∧ t = fatal (.reservedSizeClass hdr) u) ∨
    (∃ i u, fsByte b s = (.complete i, u) ∧ exec i u = .next t) := by
  unfold rxActive at h
  split at h
  · rename_i u hu; injection h with h; subst h; exact .inl hu
  · rename_i i u hu; exact .inr (.inr ⟨i, u, hu, h⟩)
  · rename_i hdr u hu; injection h with h; exact .inr (.inl ⟨hdr, u, hu, h.symm⟩)
  · cases h

/-- What an event other than a reset does in `Disconnected`. -/
theorem handleDisconnected_cases (ev : Event) (s t : State) (hr : ev ≠ .reset)
    (h : handleDisconnected ev s = .next t) :
    (ev = .start ∧ startSession s = .next t) ∨
    (∃ q, ev = .submit q ∧ t = rejectEvent .notActive s) ∨
    (((∃ b, ev = .rx b) ∨ ev = .idle ∨ ev = .closed) ∧ t = s) := by
  cases ev <;> simp_all [handleDisconnected]

/-- What an event other than a reset does in `Handshaking`. -/
theorem handleHandshaking_cases (ev : Event) (now : Nat) (s t : State) (hr : ev ≠ .reset)
    (h : handleHandshaking ev now s = .next t) :
    (ev = .start ∧ t = rejectEvent .alreadyStarted s) ∨
    (∃ q, ev = .submit q ∧ t = rejectEvent .notActive s) ∨
    (ev = .closed ∧ t = fatal .transportClosed s) ∨
    (ev = .idle ∧ s.hsStep = .capture ∧ t = hsFail s) ∨
    (∃ b, ev = .rx b ∧ s.hsStep = .capture ∧ t = capture b now s) ∨
    ((ev = .idle ∨ ∃ b, ev = .rx b) ∧ s.hsStep = .settle ∧ t = s) := by
  cases ev <;> cases hs : s.hsStep <;> simp_all [handleHandshaking]

/-- What an event other than a reset does in `Active`, before the scheduler. -/
theorem handleActive_cases (ev : Event) (s t : State) (hr : ev ≠ .reset)
    (h : handleActive ev s = .next t) :
    (ev = .start ∧ t = rejectEvent .alreadyStarted s) ∨
    (∃ q, ev = .submit q ∧ t = submitActive q s) ∨
    (ev = .closed ∧ t = fatal .transportClosed s) ∨
    (ev = .idle ∧ s.rxState = .idle ∧ t = s) ∨
    (ev = .idle ∧ s.rxState ≠ .idle ∧ t = fatal .peerDisconnect s) ∨
    (∃ b, ev = .rx b ∧ rxActive b s = .next t) := by
  cases ev with
  | idle =>
    by_cases hs : s.rxState = .idle
    · simp_all [handleActive, idleActive]
    · simp_all [handleActive, idleActive]
  | _ => simp_all [handleActive]

/-! ### One step -/

/-- Everything one step can do. -/
theorem step_cases (s s' : State) (h : step s = .next s') :
    (s.inputs = [] ∧ s' = s) ∨
    (∃ c rest, s.inputs = .configure c :: rest ∧ s.phase = .disconnected ∧
      s' = { s with inputs := rest, cfg := c }) ∨
    (∃ now rest, s.inputs = .event .reset now :: rest ∧ s' = resetRegisters { s with inputs := rest }) ∨
    (∃ ev now rest t, s.inputs = .event ev now :: rest ∧ ev ≠ .reset ∧
      handleEvent ev now (settleTest now { s with inputs := rest }) = .next t ∧
      s' = if t.phase = .active then sched now t else t) := by
  unfold step stepInput at h
  split at h
  · rename_i hi; injection h with h; exact .inl ⟨hi, h.symm⟩
  · rename_i ev now rest hi
    unfold stepEvent at h
    split at h
    · rename_i he; injection h with h; subst he; exact .inr (.inr (.inl ⟨now, rest, hi, h.symm⟩))
    · rename_i he
      unfold schedIfActive at h
      split at h
      · rename_i t ht; injection h with h; exact .inr (.inr (.inr ⟨ev, now, rest, t, hi, he, ht, h.symm⟩))
      · cases h
      · cases h
  · rename_i c rest hi
    unfold configure at h
    split at h
    · rename_i hp; injection h with h; exact .inr (.inl ⟨c, rest, hi, hp, h.symm⟩)
    · cases h

end Sys2Proof.Machine
end

