-- ==== Sys2Proof/Laws/Build.lean ====
section
/-! SUPPORT. What a builder that answers has done, the bits of a MAPPING flag byte, and the conditions of
a list of actions. -/

namespace Sys2Proof.Machine

open Sys2Proof.Safety

/-! ### Builders -/

/-- What answers behind a test has passed it. -/
theorem require_ok {α : Type} (ok : Bool) (c : Condition) (k : Except Condition α) (a : α)
    (h : require ok c k = .ok a) : ok = true ∧ k = .ok a := by
  unfold require at h
  split at h
  · exact ⟨‹_›, h⟩
  · cases h

/-- A plain build answers the frame's bytes and no warning. -/
theorem buildPlain_ok (t : FrameTarget) (p : List Byte) (b : Built) (h : buildPlain t p = .ok b) :
    ∃ bs, buildFrame t p = .ok bs ∧ b = { bytes := bs } := by
  unfold buildPlain at h
  split at h
  · cases h
  · cases h
    exact ⟨_, ‹_›, rfl⟩

/-- A text build answers the frame of the encoded text and no warning. -/
theorem buildText_ok (id : Byte) (mode : Nat) (text : List Byte) (flags : Option (List Byte)) (b : Built)
    (h : buildText id mode text flags = .ok b) :
    mode ≤ 15 ∧ ∃ p bs, encodeText text flags = .ok p ∧ buildFrame (.info mode id) p = .ok bs ∧
      b = { bytes := bs } := by
  obtain ⟨hm, h⟩ := require_ok _ _ _ _ h
  split at h
  · cases h
  · obtain ⟨bs, hf, hb⟩ := buildPlain_ok _ _ _ h
    exact ⟨of_decide_eq_true hm, _, bs, ‹_›, hf, hb⟩

/-! ### MAPPING (42_info.md R188) -/

/-- Bit `k` of the weights of a set of names, gathered onto `b`. -/
theorem foldl_nameWeight_bit (k : Nat) (ns : List MappingName) (b : Byte) :
    (ns.foldl (fun b n => b ||| (nameWeight n).getD 0#8) b).getLsbD k =
      (b.getLsbD k || ns.any fun n => ((nameWeight n).getD 0#8).getLsbD k) := by
  induction ns generalizing b with
  | nil => simp
  | cons n ns ih =>
    simp only [List.foldl_cons, ih, BitVec.getLsbD_or, List.any_cons, Bool.or_assoc]

/-- Bit `k` of the flag byte of a set of names is set exactly when some name's weight has it. -/
theorem flagByte_names_bit (k : Nat) (ns : List MappingName) :
    (flagByte (.names ns)).1.getLsbD k = ns.any fun n => ((nameWeight n).getD 0#8).getLsbD k := by
  simp only [flagByte, foldl_nameWeight_bit, BitVec.getLsbD_zero, Bool.false_or]

/-! ### Conditions -/

@[simp] theorem conditionsIn_nil : conditionsIn [] = [] := rfl

@[simp] theorem conditionsIn_append (a b : List Action) :
    conditionsIn (a ++ b) = conditionsIn a ++ conditionsIn b := List.filterMap_append

@[simp] theorem conditionsIn_cons (a : Action) (rest : List Action) :
    conditionsIn (a :: rest) = (conditionOf a).toList ++ conditionsIn rest := by
  cases a <;> rfl

/-- The actions of a fatal condition carry that condition, once. -/
@[simp] theorem conditionsIn_fatalActions (c : Condition) : conditionsIn (fatalActions c) = [c] := by
  unfold fatalActions
  split <;> rfl

end Sys2Proof.Machine
end

