-- ==== Sys2Proof/Laws/Records.lean ====
section
/-! SUPPORT. The record constructors of Machine/Operands.lean in the words of Safety.lean, little-endian
fields as concatenations, and the reception of a record as one equation. -/

namespace Sys2Proof.Machine

open Sys2Proof.Safety

/-! ### Records -/

/-- Two bytes differ as a boolean test exactly when they differ. -/
theorem bne_eq_decide (chk acc : Byte) : (chk != acc) = decide (chk ≠ acc) := by
  by_cases h : chk = acc <;> simp [h]

theorem sysFrame_eq_record (sizeBits code : Field3) : sysFrame sizeBits code = sysRecord sizeBits code := by
  have h : ∀ a b : Field3, headerByte .sys a b = BitVec.ofNat 8 (8 * a.toNat + b.toNat) := by decide
  unfold sysFrame sysRecord
  rw [h]

theorem cmdFrame_eq_record (cmd sc : Field3) (p : List Byte) (chk acc : Byte) (m : Msg) :
    cmdFrame cmd sc p chk acc m = cmdRecord cmd.toNat sc p chk acc m := by
  have h : ∀ a b : Field3, headerByte .cmd a b = BitVec.ofNat 8 (0x40 + 8 * a.toNat + b.toNat) := by
    decide
  have hc : ∀ a : Field3, a = BitVec.ofNat 3 a.toNat := by decide
  unfold cmdFrame cmdRecord
  rw [h, bne_eq_decide, ← hc]

/-- The logical mode is the mode number of 30_encoding.md R104. -/
theorem logicalMode_eq (wire : Field3) (plus8 : Bool) :
    logicalMode wire plus8 = BitVec.ofNat 4 (modeNumber wire plus8) := by
  revert wire plus8; decide

theorem infoFrame_eq_record (id : Byte) (sc wire : Field3) (plus8 : Bool) (p : List Byte)
    (chk acc : Byte) (m : Msg) :
    infoFrame id sc wire plus8 p chk acc m = infoRecord id sc wire plus8 p chk acc m := by
  have h : ∀ a b : Field3, headerByte .info a b = BitVec.ofNat 8 (0x80 + 8 * a.toNat + b.toNat) := by
    decide
  have hs : subtypeByte id plus8 = (id ||| if plus8 then 0x20 else 0) := by
    cases plus8 <;> simp [subtypeByte]
  unfold infoFrame infoRecord
  rw [h, bne_eq_decide, logicalMode_eq, hs]

theorem dataFrame_eq_record (sc wire : Field3) (p : List Byte) (chk acc : Byte) (m : Msg) :
    dataFrame sc wire p chk acc m = dataRecord sc wire p chk acc m := by
  have h : ∀ a b : Field3, headerByte .data a b = BitVec.ofNat 8 (0xC0 + 8 * a.toNat + b.toNat) := by
    decide
  have hm : ∀ a : Field3, a.setWidth 4 = BitVec.ofNat 4 a.toNat := by decide
  unfold dataFrame dataRecord
  rw [h, bne_eq_decide, hm]

/-! ### Fields -/

/-- A 16-bit little-endian field is its high byte before its low byte. -/
theorem leValue_two (a b : Byte) : BitVec.ofNat 16 (leValue [a, b]) = b ++ a := by
  apply BitVec.eq_of_toNat_eq
  have h : (b ++ a : BitVec (8 + 8)).toNat = b.toNat * 2 ^ 8 + a.toNat := by
    rw [BitVec.toNat_append, ← Nat.shiftLeft_add_eq_or_of_lt a.isLt, Nat.shiftLeft_eq]
  have e : (b ++ a : BitVec 16).toNat = (b ++ a : BitVec (8 + 8)).toNat := rfl
  rw [e, h, BitVec.toNat_ofNat]
  simp only [leValue]
  omega

/-- A 32-bit little-endian field is its bytes from the last to the first. -/
theorem leValue_four (a b c d : Byte) :
    BitVec.ofNat 32 (leValue [a, b, c, d]) = d ++ c ++ b ++ a := by
  apply BitVec.eq_of_toNat_eq
  have h : ∀ {n : Nat} (x : BitVec n) (y : Byte),
      (x ++ y : BitVec (n + 8)).toNat = x.toNat * 2 ^ 8 + y.toNat := by
    intro n x y
    rw [BitVec.toNat_append, ← Nat.shiftLeft_add_eq_or_of_lt y.isLt, Nat.shiftLeft_eq]
  have e : (d ++ c ++ b ++ a : BitVec 32).toNat =
      (d ++ c ++ b ++ a : BitVec (8 + 8 + 8 + 8)).toNat := rfl
  rw [e, h, h, h, BitVec.toNat_ofNat]
  simp only [leValue]
  omega

/-- The two FORMAT flags in the words of 42_info.md R196. -/
theorem formatFlags_eq (ds df : Byte) : formatFlags ds df =
    (decide (df.toNat ≤ 3 ∧ 32 < ds.toNat * formatSize df.toNat), decide (3 < df.toNat)) := by
  have h : ∀ df : Byte, df.toNat ≤ 3 → sizeOfFormat df = formatSize df.toNat := by decide
  unfold formatFlags
  by_cases hd : 3 < df.toNat
  · simp [hd]
  · simp [hd, h df (by omega), Nat.not_lt.1 hd]

/-! ### Reception -/

/-- The report of a checksum fault as one update of the outputs. -/
theorem reportChecksum_eq (f : Frame) (s : State) (chk acc : Byte) (hr : f.chkRx = some chk)
    (hc : f.chkCalc = some acc) (hf : f.chkFault = decide (chk ≠ acc)) :
    reportChecksum f s = { s with outputs := s.outputs ++ checksumReport chk acc } := by
  unfold reportChecksum checksumReport
  rw [hr, hc, hf]
  by_cases h : chk = acc <;> simp [h, emit]

/-- A record with a checksum byte is held, when it is an EXT_MODE frame and none is held, or else
delivered. -/
theorem receive_eq (f : Frame) (s : State) (chk acc : Byte) (hr : f.chkRx = some chk)
    (hc : f.chkCalc = some acc) (hf : f.chkFault = decide (chk ≠ acc)) :
    receive f s = .next (if s.extHold = none ∧ f.cat = .cmd ∧ f.code = 6
      then held f (checksumReport chk acc) s else delivered f (checksumReport chk acc) s) := by
  simp only [receive, reportChecksum_eq f s chk acc hr hc hf]
  rcases onFrame_cases f { s with outputs := s.outputs ++ checksumReport chk acc } with
    ⟨h, he, ho⟩ | ⟨h, ho⟩ <;> rw [ho]
  · rw [isExtMode_iff] at he
    have h : s.extHold = none := h
    simp [h, he, held]
  · simp only [isExtMode_iff] at h
    rw [if_neg h]; rfl

end Sys2Proof.Machine
end

