-- ==== Sys2Proof/Laws/PerInstr.lean ====
section
/-! SUPPORT. Statements for all instructions, one lemma per constructor. -/

namespace Sys2Proof.Laws.EncodedSize

open Sys2Proof

/-- A well-formed instruction has as many bytes as its own header says: 1 for SYS, the payload length and
the overhead otherwise (30_encoding.md R94). -/
def Statement (i : Instr) : Prop :=
  i.wf = true → ∃ h t, encode i = h :: t ∧ (encode i).length = totalSize (categoryOf h) (sizeField h)

/-- The payload of a well-formed body has the length its size class says. -/
theorem length_of_bodyWf {sc : Field3} {p : List Byte} (h : bodyWf sc p = true) :
    p.length = 2 ^ sc.toNat := by
  simp only [bodyWf, Bool.and_eq_true, beq_iff_eq] at h
  exact h.2

theorem categoryOf_headerByte (cat : Category) (sc m : Field3) :
    categoryOf (headerByte cat sc m) = cat := by
  cases cat <;> revert sc m <;> decide

theorem sizeField_headerByte (cat : Category) (sc m : Field3) : sizeField (headerByte cat sc m) = sc := by
  cases cat <;> revert sc m <;> decide

theorem rawCmd_size (m sc : Field3) (p : List Byte) (chk : Byte) (h : bodyWf sc p = true) :
    (rawCmd m sc p chk).bytes.length = totalSize .cmd sc := by
  simp [rawCmd, RawFrame.bytes, totalSize, overhead, length_of_bodyWf h]

theorem rawInfo_size (id : Byte) (sc wire : Field3) (plus8 : Bool) (p : List Byte) (chk : Byte)
    (h : bodyWf sc p = true) : (rawInfo id sc wire plus8 p chk).bytes.length = totalSize .info sc := by
  simp [rawInfo, RawFrame.bytes, totalSize, overhead, length_of_bodyWf h]

theorem cmd_statement (m sc : Field3) (p : List Byte) (chk : Byte) (i : Instr)
    (hr : rawOf i = rawCmd m sc p chk) (hb : i.wf = true → bodyWf sc p = true) : Statement i := by
  intro hw
  refine ⟨headerByte .cmd sc m, p ++ [chk], by simp [encode, hr, rawCmd, RawFrame.bytes], ?_⟩
  rw [encode, hr, rawCmd_size m sc p chk (hb hw), categoryOf_headerByte, sizeField_headerByte]

theorem info_statement (id : Byte) (sc wire : Field3) (plus8 : Bool) (p : List Byte) (chk : Byte)
    (i : Instr) (hr : rawOf i = rawInfo id sc wire plus8 p chk) (hb : i.wf = true → bodyWf sc p = true) :
    Statement i := by
  intro hw
  refine ⟨headerByte .info sc wire, subtypeByte id plus8 :: (p ++ [chk]),
    by simp [encode, hr, rawInfo, RawFrame.bytes], ?_⟩
  rw [encode, hr, rawInfo_size id sc wire plus8 p chk (hb hw), categoryOf_headerByte,
    sizeField_headerByte]

theorem sys (sizeBits code : Field3) : Statement (.sys sizeBits code) := fun _ =>
  ⟨headerByte .sys sizeBits code, [], rfl, by
    rw [categoryOf_headerByte]
    rfl⟩

theorem cmdType (sc : Field3) (p : List Byte) (chk : Byte) : Statement (.cmdType sc p chk) :=
  cmd_statement 0 sc p chk _ rfl id

theorem cmdModes (sc : Field3) (p : List Byte) (chk : Byte) : Statement (.cmdModes sc p chk) :=
  cmd_statement 1 sc p chk _ rfl id

theorem cmdSpeed (sc : Field3) (p : List Byte) (chk : Byte) : Statement (.cmdSpeed sc p chk) :=
  cmd_statement 2 sc p chk _ rfl id

theorem cmdSelect (sc : Field3) (p : List Byte) (chk : Byte) : Statement (.cmdSelect sc p chk) :=
  cmd_statement 3 sc p chk _ rfl id

theorem cmdWrite (sc : Field3) (p : List Byte) (chk : Byte) : Statement (.cmdWrite sc p chk) :=
  cmd_statement 4 sc p chk _ rfl id

theorem cmdUnk1 (sc : Field3) (p : List Byte) (chk : Byte) : Statement (.cmdUnk1 sc p chk) :=
  cmd_statement 5 sc p chk _ rfl id

theorem cmdExtMode (sc : Field3) (p : List Byte) (chk : Byte) : Statement (.cmdExtMode sc p chk) :=
  cmd_statement 6 sc p chk _ rfl id

theorem cmdVersion (sc : Field3) (p : List Byte) (chk : Byte) : Statement (.cmdVersion sc p chk) :=
  cmd_statement 7 sc p chk _ rfl id

theorem infoName (sc wire : Field3) (plus8 : Bool) (p : List Byte) (chk : Byte) :
    Statement (.infoName sc wire plus8 p chk) := info_statement 0x00 sc wire plus8 p chk _ rfl id

theorem infoRaw (sc wire : Field3) (plus8 : Bool) (p : List Byte) (chk : Byte) :
    Statement (.infoRaw sc wire plus8 p chk) := info_statement 0x01 sc wire plus8 p chk _ rfl id

theorem infoPct (sc wire : Field3) (plus8 : Bool) (p : List Byte) (chk : Byte) :
    Statement (.infoPct sc wire plus8 p chk) := info_statement 0x02 sc wire plus8 p chk _ rfl id

theorem infoSi (sc wire : Field3) (plus8 : Bool) (p : List Byte) (chk : Byte) :
    Statement (.infoSi sc wire plus8 p chk) := info_statement 0x03 sc wire plus8 p chk _ rfl id

theorem infoUnits (sc wire : Field3) (plus8 : Bool) (p : List Byte) (chk : Byte) :
    Statement (.infoUnits sc wire plus8 p chk) := info_statement 0x04 sc wire plus8 p chk _ rfl id

theorem infoMapping (sc wire : Field3) (plus8 : Bool) (p : List Byte) (chk : Byte) :
    Statement (.infoMapping sc wire plus8 p chk) := info_statement 0x05 sc wire plus8 p chk _ rfl id

theorem infoModeCombos (sc wire : Field3) (plus8 : Bool) (p : List Byte) (chk : Byte) :
    Statement (.infoModeCombos sc wire plus8 p chk) := info_statement 0x06 sc wire plus8 p chk _ rfl id

theorem infoFormat (sc wire : Field3) (plus8 : Bool) (p : List Byte) (chk : Byte) :
    Statement (.infoFormat sc wire plus8 p chk) := info_statement 0x80 sc wire plus8 p chk _ rfl id

theorem infoUnsupported (sc wire : Field3) (plus8 : Bool) (subtypeId : Byte) (p : List Byte)
    (chk : Byte) : Statement (.infoUnsupported sc wire plus8 subtypeId p chk) :=
  info_statement subtypeId sc wire plus8 p chk _ rfl fun h => by
    simp only [Instr.wf, Bool.and_eq_true] at h
    exact h.1

theorem data (sc wire : Field3) (p : List Byte) (chk : Byte) : Statement (.data sc wire p chk) := by
  intro hw
  refine ⟨headerByte .data sc wire, p ++ [chk], rfl, ?_⟩
  rw [categoryOf_headerByte, sizeField_headerByte]
  simp [encode, rawOf, RawFrame.bytes, totalSize, overhead, length_of_bodyWf (sc := sc) (p := p) hw]

end Sys2Proof.Laws.EncodedSize
end

