-- ==== Sys2Proof/Tests/Slice0.lean ====
section
/-! SUPPORT. Tests on fixed values, each expected value from the worked example of the rule named, and the
witnesses of the statements' hypotheses. -/

namespace Sys2Proof.Tests

open Sys2Proof.Machine Sys2Proof.Safety

/-! ### Well-formedness: an ill-formed term for each check -/

theorem test_wf_accepts : (Instr.cmdModes 1 [0x03, 0x02] 0xB7).wf = true := by decide
theorem test_wf_refuses_reserved_size_class :
    (Instr.data 6 0 (List.replicate 64 0) 0).wf = false := by decide
theorem test_wf_refuses_payload_length : (Instr.cmdModes 1 [0x03] 0xB7).wf = false := by decide
theorem test_wf_refuses_bit_5_in_subtype_id : (Instr.infoUnsupported 0 0 false 0x27 [0] 0).wf = false := by
  decide
theorem test_wf_refuses_known_subtype_id :
    (Instr.infoUnsupported 0 0 false 0x06 [0] 0).wf = false ∧
    (Instr.infoUnsupported 0 0 false 0x80 [0] 0).wf = false := by decide

/-! ### Decoding: one word written out per constructor -/

/-- 40_sys.md R131. -/
theorem test_decode_sys : decode [0x3A] =
    .ok (.sys 7 2, []) := by decide
/-- 44_frame_decoder.md R237. -/
theorem test_decode_cmdType : decode [0x40, 0x22, 0x9D] =
    .ok (.cmdType 0 [0x22] 0x9D, []) := by decide
/-- 44_frame_decoder.md R237. -/
theorem test_decode_cmdModes : decode [0x49, 0x03, 0x02, 0xB7] =
    .ok (.cmdModes 1 [0x03, 0x02] 0xB7, []) := by decide
/-- 41_cmd.md R145. -/
theorem test_decode_cmdSpeed : decode [0x52, 0x00, 0xC2, 0x01, 0x00, 0x6E] =
    .ok (.cmdSpeed 2 [0x00, 0xC2, 0x01, 0x00] 0x6E, []) := by decide
/-- 41_cmd.md R147. -/
theorem test_decode_cmdSelect : decode [0x43, 0x01, 0xBD] =
    .ok (.cmdSelect 0 [0x01] 0xBD, []) := by decide
/-- 41_cmd.md R149. -/
theorem test_decode_cmdWrite : decode [0x5C, 0x23, 0x00, 0x00, 0x10, 0x40, 0x00, 0x00, 0x00, 0xD0] =
    .ok (.cmdWrite 3 [0x23, 0x00, 0x00, 0x10, 0x40, 0x00, 0x00, 0x00] 0xD0, []) := by decide
/-- 41_cmd.md R151. -/
theorem test_decode_cmdUnk1 : decode [0x45, 0x00, 0xBA] =
    .ok (.cmdUnk1 0 [0x00] 0xBA, []) := by decide
/-- 41_cmd.md R153. -/
theorem test_decode_cmdExtMode : decode [0x46, 0x08, 0xB1] =
    .ok (.cmdExtMode 0 [0x08] 0xB1, []) := by decide
/-- 41_cmd.md R156. -/
theorem test_decode_cmdVersion : decode [0x5F, 0x56, 0x04, 0x03, 0x12, 0x00, 0x00, 0x00, 0x21, 0xC2] =
    .ok (.cmdVersion 3 [0x56, 0x04, 0x03, 0x12, 0x00, 0x00, 0x00, 0x21] 0xC2, []) := by decide
/-- 42_info.md R172. -/
theorem test_decode_infoName : decode [0x81, 0x20, 0x58, 0x06] =
    .ok (.infoName 0 1 true [0x58] 0x06, []) := by decide
/-- 42_info.md R178. -/
theorem test_decode_infoRaw : decode [0x98, 0x01, 0x00, 0x00, 0x00, 0x00, 0x00, 0xC0, 0x7F, 0x44, 0x9D] =
    .ok (.infoRaw 3 0 false [0x00, 0x00, 0x00, 0x00, 0x00, 0xC0, 0x7F, 0x44] 0x9D, []) := by decide
/-- 42_info.md R180. -/
theorem test_decode_infoPct : decode [0x9A, 0x02, 0x00, 0x00, 0x00, 0x00, 0x00, 0x00, 0xC8, 0x42, 0xED] =
    .ok (.infoPct 3 2 false [0x00, 0x00, 0x00, 0x00, 0x00, 0x00, 0xC8, 0x42] 0xED, []) := by decide
/-- 42_info.md R182. -/
theorem test_decode_infoSi : decode [0x98, 0x23, 0x00, 0x00, 0x80, 0xBF, 0x00, 0x00, 0x80, 0x3F, 0xC4] =
    .ok (.infoSi 3 0 true [0x00, 0x00, 0x80, 0xBF, 0x00, 0x00, 0x80, 0x3F] 0xC4, []) := by decide
/-- 42_info.md R184. -/
theorem test_decode_infoUnits : decode [0x90, 0x04, 0x50, 0x43, 0x54, 0x00, 0x2C] =
    .ok (.infoUnits 2 0 false [0x50, 0x43, 0x54, 0x00] 0x2C, []) := by decide
/-- 42_info.md R186. -/
theorem test_decode_infoMapping : decode [0x88, 0x05, 0xC4, 0x01, 0xB7] =
    .ok (.infoMapping 1 0 false [0xC4, 0x01] 0xB7, []) := by decide
/-- 42_info.md R192. -/
theorem test_decode_infoModeCombos : decode [0x98, 0x06, 0x07, 0x00, 0x00, 0x03, 0x01, 0x80, 0x00, 0x00, 0xE4] =
    .ok (.infoModeCombos 3 0 false [0x07, 0x00, 0x00, 0x03, 0x01, 0x80, 0x00, 0x00] 0xE4, []) := by decide
/-- 42_info.md R196. -/
theorem test_decode_infoFormat : decode [0x90, 0x80, 0x10, 0x03, 0x04, 0x01, 0xF9] =
    .ok (.infoFormat 2 0 false [0x10, 0x03, 0x04, 0x01] 0xF9, []) := by decide
/-- 42_info.md R200. -/
theorem test_decode_infoUnsupported : decode [0x84, 0x67, 0x01, 0x1D] =
    .ok (.infoUnsupported 0 4 true 0x47 [0x01] 0x1D, []) := by decide
/-- 43_data.md R211. -/
theorem test_decode_data : decode [0xDE, 0x01, 0x02, 0x03, 0x04, 0x05, 0x06, 0x07, 0x08, 0x29] =
    .ok (.data 3 6 [0x01, 0x02, 0x03, 0x04, 0x05, 0x06, 0x07, 0x08] 0x29, []) := by decide

/-- The rejections (44_frame_decoder.md R223). -/
theorem test_decode_rejects : decode [] = .error .endOfInput ∧ decode [0x40, 0x22] = .error .truncated ∧
    decode [0xF0, 0x00, 0x00] = .error (.reservedSizeClass 0xF0) := by decide

/-- A word of the opcode table stands for the frame it begins, with zeros after it. -/
theorem test_table_words :
    decodeTableWord 8 0x47 = some (.cmdVersion 0 [0] 0) ∧
    decodeTableWord 16 0x8080 = some (.infoFormat 0 0 false [0] 0) ∧
    decodeTableWord 16 0x8007 = some (.infoUnsupported 0 0 false 0x07 [0] 0) ∧
    decodeTableWord 8 0x70 = none := by decide

/-! ### A small state -/

/-- The configuration of spec/95_test_vectors.md. -/
def cfg0 : Cfg where
  refBlob := [0x40, 0x22, 0x9D, 0x04]
  handshakeBaud := 2400
  productionBaud := 115200
  hsAttempts := 2
  settleDelay := 10
  keepaliveInterval := 100
  minQuerySpacing := 20
  readTimeout := 50
  sysAck := 0x04
  sysKeepalive := 0x02
  extLo := 0x00
  extHi := 0x08

/-- Right after reset, with the configuration written and these inputs to come. -/
def resetWith (inputs : List Input) : State := { State.reset with cfg := cfg0, inputs := inputs }

/-- In `Handshaking`, at this sub-state, with these attempts left. -/
def shaking (hs : HsStep) (left : Nat) (inputs : List Input) : State :=
  { resetWith inputs with phase := .handshaking, hsStep := hs, hsLeft := left, settleDeadline := 18 }

/-- In `Active` at a frame boundary, both timers at 20. -/
def active (inputs : List Input) : State :=
  { resetWith inputs with phase := .active, lastKeepaliveTime := 20, lastQueryTime := 20 }

/-- In `Active`, the decoder having taken these bytes. -/
def midFrame (bytes : List Byte) (inputs : List Input) : State := feedDecoder bytes (active inputs)

/-- The state after a step, if there is one. -/
def after (s : State) : Option State :=
  match step s with
  | .next t => some t
  | .fault _ => none
  | .refused _ => none

/-- The outputs after a step. -/
def outputsAfter (s : State) : Option (List Action) := (after s).map (·.outputs)

/-- The messages delivered by a step. -/
def deliveredBy (s : State) : Option (List Msg) :=
  (after s).map fun t => t.outputs.filterMap fun a =>
    match a with
    | .deliver d => some d.frame.msg
    | _ => none

/-! ### One step per message kind -/

/-- 40_sys.md R131. -/
theorem test_step_sys : deliveredBy (placeFrame [0x3A] (active [])) =
    some [.sys 2 7] := by decide
/-- 44_frame_decoder.md R237. -/
theorem test_step_cmdType : deliveredBy (placeFrame [0x40, 0x22, 0x9D] (active [])) =
    some [.cmdType 0x22] := by decide
/-- 44_frame_decoder.md R237. -/
theorem test_step_cmdModes : deliveredBy (placeFrame [0x49, 0x03, 0x02, 0xB7] (active [])) =
    some [.cmdModes [4, 3]] := by decide
/-- 41_cmd.md R145. -/
theorem test_step_cmdSpeed : deliveredBy (placeFrame [0x52, 0x00, 0xC2, 0x01, 0x00, 0x6E] (active [])) =
    some [.cmdSpeed 0x0001C200] := by decide
/-- 41_cmd.md R147. -/
theorem test_step_cmdSelect : deliveredBy (placeFrame [0x43, 0x01, 0xBD] (active [])) =
    some [.cmdSelect [0x01]] := by decide
/-- 41_cmd.md R149. -/
theorem test_step_cmdWrite : deliveredBy (placeFrame [0x5C, 0x23, 0x00, 0x00, 0x10, 0x40, 0x00, 0x00, 0x00, 0xD0] (active [])) =
    some [.cmdWrite [0x23, 0x00, 0x00, 0x10, 0x40, 0x00, 0x00, 0x00]] := by decide
/-- 41_cmd.md R151. -/
theorem test_step_cmdUnk1 : deliveredBy (placeFrame [0x45, 0x00, 0xBA] (active [])) =
    some [.cmdUnk1 [0x00]] := by decide
/-- 41_cmd.md R156. -/
theorem test_step_cmdVersion : deliveredBy (placeFrame [0x5F, 0x56, 0x04, 0x03, 0x12, 0x00, 0x00, 0x00, 0x21, 0xC2] (active [])) =
    some [.cmdVersion ⟨1, 2, 3, 0x0456⟩ ⟨2, 1, 0, 0⟩] := by decide
/-- 42_info.md R172. -/
theorem test_step_infoName : deliveredBy (placeFrame [0x81, 0x20, 0x58, 0x06] (active [])) =
    some [.infoName 9 [0x58] none] := by decide
/-- 42_info.md R178. -/
theorem test_step_infoRaw : deliveredBy (placeFrame [0x98, 0x01, 0x00, 0x00, 0x00, 0x00, 0x00, 0xC0, 0x7F, 0x44, 0x9D] (active [])) =
    some [.infoRaw 0 0x00000000 0x447FC000] := by decide
/-- 42_info.md R180. -/
theorem test_step_infoPct : deliveredBy (placeFrame [0x9A, 0x02, 0x00, 0x00, 0x00, 0x00, 0x00, 0x00, 0xC8, 0x42, 0xED] (active [])) =
    some [.infoPct 2 0x00000000 0x42C80000] := by decide
/-- 42_info.md R182. -/
theorem test_step_infoSi : deliveredBy (placeFrame [0x98, 0x23, 0x00, 0x00, 0x80, 0xBF, 0x00, 0x00, 0x80, 0x3F, 0xC4] (active [])) =
    some [.infoSi 8 0xBF800000 0x3F800000] := by decide
/-- 42_info.md R184. -/
theorem test_step_infoUnits : deliveredBy (placeFrame [0x90, 0x04, 0x50, 0x43, 0x54, 0x00, 0x2C] (active [])) =
    some [.infoUnits 0 [0x50, 0x43, 0x54] none] := by decide
/-- 42_info.md R186. -/
theorem test_step_infoMapping : deliveredBy (placeFrame [0x88, 0x05, 0xC4, 0x01, 0xB7] (active [])) =
    some [.infoMapping 0 0xC4 0x01] := by decide
/-- 42_info.md R192. -/
theorem test_step_infoModeCombos : deliveredBy (placeFrame [0x98, 0x06, 0x07, 0x00, 0x00, 0x03, 0x01, 0x80, 0x00, 0x00, 0xE4] (active [])) =
    some [.infoModeCombos 0 [0x0007, 0x0300, 0x8001, 0x0000] [0, 1, 2, 8, 9, 15]] := by decide
/-- 42_info.md R196. -/
theorem test_step_infoFormat : deliveredBy (placeFrame [0x90, 0x80, 0x10, 0x03, 0x04, 0x01, 0xF9] (active [])) =
    some [.infoFormat 0 0x10 0x03 0x04 0x01 true false] := by decide
/-- 42_info.md R200. -/
theorem test_step_infoUnsupported : deliveredBy (placeFrame [0x84, 0x67, 0x01, 0x1D] (active [])) =
    some [.unsupported 12 0x47 [0x01]] := by decide
/-- 43_data.md R211. -/
theorem test_step_data : deliveredBy (placeFrame [0xDE, 0x01, 0x02, 0x03, 0x04, 0x05, 0x06, 0x07, 0x08, 0x29] (active [])) =
    some [.data 6 [0x01, 0x02, 0x03, 0x04, 0x05, 0x06, 0x07, 0x08]] := by decide
/-- An EXT_MODE frame is held, and goes with its companion (46_session.md R298). -/
theorem test_step_cmdExtMode :
    (after (placeFrame [0x46, 0x08, 0xB1] (active []))).map
        (fun t => (t.outputs, t.extHold.map (·.msg), t.multipartPending)) =
      some ([], some (.cmdExtMode [0x08]), true) := by decide

/-- A bad checksum is reported, then the frame is delivered (43_data.md R211, program P2 at 124). -/
theorem test_checksum_fault :
    (outputsAfter (placeFrame [0xC0, 0x00, 0x00] (active []))).map (·.head?) =
      some (some (.report (.checksumFault 0x00 0x3F))) ∧
    deliveredBy (placeFrame [0xC0, 0x00, 0x00] (active [])) = some [.data 0 [0x00]] := by decide

/-- A length the kind does not allow (44_frame_decoder.md R235). -/
theorem test_malformed :
    deliveredBy (placeFrame [0x48, 0x01, 0x02, 0xB4] (active [])) =
      some [.malformed .cmdType [0x01, 0x02]] := by decide

/-- The frame of a table word is the one the next step completes. -/
theorem test_withFetchWord :
    deliveredBy (State.reset.withFetchWord 8 0x41) = some [.cmdModes [1]] ∧
    deliveredBy (State.reset.withFetchWord 16 0x8047) = some [.unsupported 0 0x47 [0x00]] := by decide

/-! ### The checksum, the header encoder and the builders -/

/-- The worked example of the source (30_encoding.md R108). -/
theorem test_checksum :
    checksum [0x5C, 0x23, 0x00, 0x00, 0x10, 0x40, 0x00, 0x00, 0x00] = 0xD0 := by decide

/-- A 4-byte CMD payload makes a 6-byte frame, header `0x50 | m` (30_encoding.md R99). -/
theorem test_encode_header : encodeHeader .cmd 5 4 = .ok 0x55 ∧ decodedTotal 0x55 = 6 := by decide

/-- The bytes a builder returns, if it does. -/
def built (spec : MsgSpec) : Option (List Byte) :=
  match buildMsg spec with
  | .ok b => some b.bytes
  | .error _ => none

/-- The condition a builder raises, if it does. -/
def refusedAs (spec : MsgSpec) : Option Condition :=
  match buildMsg spec with
  | .ok _ => none
  | .error c => some c

/-- SYS and CMD builds (40_sys.md R133, 41_cmd.md R142 to R156). -/
theorem test_build_cmd :
    built (.sys 0x02) = some [0x02] ∧
    built (.cmdType 0x3D) = some [0x40, 0x3D, 0x82] ∧
    built (.cmdModes [8, 8, 1]) = some [0x51, 0x07, 0x07, 0x00, 0x00, 0xAE] ∧
    built (.cmdSpeed 2400) = some [0x52, 0x60, 0x09, 0x00, 0x00, 0xC4] ∧
    built (.cmdWrite [0xAA, 0xBB, 0xCC]) = some [0x54, 0xAA, 0xBB, 0xCC, 0x00, 0x76] ∧
    built (.cmdVersion ⟨1, 2, 3, 0x0456⟩ ⟨2, 1, 0, 0⟩) =
      some [0x5F, 0x56, 0x04, 0x03, 0x12, 0x00, 0x00, 0x00, 0x21, 0xC2] := by decide

/-- INFO and DATA builds (42_info.md R173, R175; 45_tx_encoder.md R258; 43_data.md R212). -/
theorem test_build_info :
    built (.infoName 0 [] none) = some [0x80, 0x00, 0x00, 0x7F] ∧
    built (.infoName 2 [0x61] (some [1, 2, 3, 4, 5, 6])) =
      some [0x9A, 0x00, 0x61, 0x00, 0x01, 0x02, 0x03, 0x04, 0x05, 0x06, 0x03] ∧
    built (.infoName 9 [0x58] none) = some [0x81, 0x20, 0x58, 0x06] ∧
    built (.data 2 [1, 2, 3, 4, 5]) =
      some [0xDA, 0x01, 0x02, 0x03, 0x04, 0x05, 0x00, 0x00, 0x00, 0x24] := by decide

/-- The order of the encode conditions (45_tx_encoder.md R252). -/
theorem test_build_refusals :
    refusedAs (.infoName 16 (List.replicate 12 0x41) none) = some .fieldOutOfRange ∧
    refusedAs (.infoName 0 (List.replicate 12 0x41) (some [])) = some .missingFlagField ∧
    refusedAs (.infoName 0 (List.replicate 12 0x41) none) = some .textTooLong ∧
    refusedAs (.cmdSelect []) = some (.sizeOutOfRange 0) ∧
    refusedAs (.infoMapping 0 (some (.byteValue 256)) none) = some .fieldOutOfRange ∧
    refusedAs (.infoModeCombos 0 (List.replicate 17 0)) = some (.sizeOutOfRange 34) := by decide

/-! ### The session, one step at a time (spec/95_test_vectors.md, programs P2 to P5) -/

theorem test_start : (after (resetWith [.event .start 0])).map
    (fun t => (t.phase, t.hsLeft, t.activeBaud, t.outputs)) =
      some (.handshaking, 2, 2400, [.openTransport 2400]) := by decide

/-- P2 at 8: the last byte of the blob. -/
theorem test_blob_matched :
    (after { shaking .capture 2 [.event (.rx 0x04) 8] with hsBuf := [0x40, 0x22, 0x9D] }).map
      (fun t => (t.hsStep, t.hsBuf, t.settleDeadline, t.outputs)) =
        some (.settle, [], 18, [.tx [0x04]]) := by decide

/-- P2 at 20: activation before the event. -/
theorem test_activation : (after (shaking .settle 2 [.event .idle 20])).map
    (fun t => (t.phase, t.lastKeepaliveTime, t.lastQueryTime, t.outputs)) =
      some (.active, 20, 20, [.setBaud 115200]) := by decide

/-- P2 at 40: the waiting query leaves. -/
theorem test_query_sent :
    (after { active [.event .idle 40] with pendingQuery := some ⟨[0x43, 0x01, 0xBD], false⟩ }).map
      (fun t => (t.pendingQuery, t.lastQueryTime, t.outputs)) =
        some (none, 40, [.tx [0x43, 0x01, 0xBD]]) := by decide

/-- P2 at 120: the keep-alive. -/
theorem test_keepalive : (after (active [.event .idle 120])).map
    (fun t => (t.lastKeepaliveTime, t.outputs)) = some (120, [.tx [0x02]]) := by decide

/-- P2 at 271: a short read. -/
theorem test_short_read : (after (midFrame [0xD8] [.event .idle 271])).map
    (fun t => (t.phase, t.rxState, t.rxPos, t.outputs)) =
      some (.disconnected, .idle, 1, [.report .peerDisconnect, .closeTransport]) := by decide

/-- P4: the last attempt fails. -/
theorem test_last_attempt : (after (shaking .capture 1 [.event .idle 5])).map
    (fun t => (t.phase, t.hsLeft, t.outputs)) =
      some (.disconnected, 0, [.report .deviceNotFound, .closeTransport]) := by decide

/-- P5: a reserved size class. -/
theorem test_reserved_size_class : (after (active [.event (.rx 0x70) 30])).map
    (fun t => (t.phase, t.rxPos, t.outputs)) =
      some (.disconnected, 1, [.report (.reservedSizeClass 0x70), .closeTransport]) := by decide

/-- The two-part write (45_tx_encoder.md R262). -/
theorem test_write2 : encodeQuery cfg0 (.write 9 [0x01, 0x02] false) =
    .ok ⟨[0x46, 0x08, 0xB1, 0xC9, 0x01, 0x02, 0x35], true⟩ := by decide

/-- A start with the unwritten configuration is refused (10_state.md R25). -/
theorem test_start_refused :
    step { State.reset with inputs := [.event .start 0] } = .refused .illFormedConfig := rfl

/-! ### Witnesses: states and operands that meet the hypotheses of the statements -/

/-- DecodeOfEncode, ExecIsDispatchByNumber, FrameAdvancesByItsSize: well-formed instructions at the
extreme size classes, and the highest unknown subtype id. -/
theorem witness_wf : (Instr.infoUnsupported 0 7 true 0xDF [0xFF] 0).wf = true ∧
    (Instr.data 5 7 (List.replicate 32 0xFF) 0).wf = true ∧ (Instr.sys 7 7).wf = true ∧
    (active []).rxState = .idle := by decide

/-- EncodeOfDecode: accepted bytes with some left over. -/
theorem witness_accepted : decode [0x40, 0x22, 0x9D, 0x04] = .ok (.cmdType 0 [0x22] 0x9D, [0x04]) := by
  decide

/-- DecodeRejectsByName: each clause at its boundaries. -/
theorem witness_decode_clauses :
    (0x3F : Byte).toNat < 64 ∧
    (64 ≤ (0x77 : Byte).toNat ∧ 6 ≤ (0x77 : Byte).toNat / 8 % 8) ∧
    (64 ≤ (0x6F : Byte).toNat ∧ (0x6F : Byte).toNat / 8 % 8 < 6) ∧
    (64 ≤ (0x80 : Byte).toNat ∧ (0x80 : Byte).toNat / 8 % 8 < 6 ∧
      ([0, 0] : List Byte).length < 1 + 2 ∧ 1 + 2 ≤ ([0, 0, 0] : List Byte).length) := by decide

/-- EachPairSelectsOneKind: a frame of each width of row. -/
theorem witness_pair : decode (0x40 :: 0x22 :: [0x9D]) = .ok (.cmdType 0 [0x22] 0x9D, []) ∧
    decode (0x84 :: 0x67 :: [0x01, 0x1D]) = .ok (.infoUnsupported 0 4 true 0x47 [0x01] 0x1D, []) ∧
    decode (0x3F :: 0x00 :: []) = .ok (.sys 7 7, [0x00]) := by decide

/-- ChecksumLaws: a permutation, and the highest bit. -/
theorem witness_checksum : ([1, 2] : List Byte).Perm [2, 1] ∧ (7 : Nat) < 8 := by decide

/-- EncodeHeaderOutcomes: each clause at its boundaries. -/
theorem witness_encode_header :
    (Category.cmd = .sys ∨ 7 < 8) ∧ (Category.sys = .sys ∨ 7 < 0) ∧
    (Category.data ≠ .sys ∧ 7 ≤ 7 ∧ (0 = 0 ∨ 32 < 0) ∧ (33 = 0 ∨ 32 < 33)) ∧
    (Category.info ≠ .sys ∧ 0 ≤ 7 ∧ 1 ≤ 1 ∧ 1 ≤ 32 ∧ 1 ≤ 32 ∧ 32 ≤ 32) := by decide

/-- BuildFrameOutcomes: each clause at its boundaries. -/
theorem witness_build_frame :
    ¬ TargetOk (.cmd 8) ∧ ¬ TargetOk (.info 16 0) ∧ ¬ TargetOk (.info 0 7) ∧ ¬ TargetOk (.data 8) ∧
    TargetOk (.cmd 7) ∧ TargetOk (.info 15 0x80) ∧ TargetOk (.data 7) ∧
    ([] : List Byte).length = 0 ∧ 32 < (List.replicate 33 (0 : Byte)).length ∧
    1 ≤ ([0] : List Byte).length ∧ (List.replicate 32 (0 : Byte)).length ≤ 32 := by
  simp only [TargetOk]; decide

/-- BuiltFrameDecodesAlone: a built frame with padding. -/
theorem witness_built : buildFrame (.info 9 0x04) [1, 2, 3] =
    .ok [0x91, 0x24, 1, 2, 3, 0, 0x4A] := by decide

/-- SysAndCmdRoundTrip: each clause at its boundaries. -/
theorem witness_sys_and_cmd :
    63 < 64 ∧ 255 ≤ 255 ∧ 2 ^ 32 - 1 < 2 ^ 32 ∧
    VersionOk ⟨15, 15, 255, 65535⟩ ∧ VersionOk ⟨0, 0, 0, 0⟩ ∧
    [1, 256].length ∈ [1, 2, 4] ∧ (∀ c ∈ [1, 256], 1 ≤ c ∧ c ≤ 256) := by
  simp only [VersionOk]; decide

/-- InfoRoundTrip, TextRoundTrip, RoundTripFailures: texts at the boundary lengths. -/
theorem witness_texts :
    15 ≤ 15 ∧ 255 ≤ 255 ∧
    (AsciiText [] ∧ ([] : List Byte).length ≤ 1) ∧
    (AsciiText [0x7F] ∧ ([0x7F] : List Byte).length ≤ 1) ∧
    (AsciiText [0x01, 0x7F] ∧ 2 ≤ ([0x01, 0x7F] : List Byte).length) ∧
    (AsciiText (List.replicate 5 0x41) ∧ (List.replicate 5 (0x41 : Byte)).length ≤ 5) ∧
    (AsciiText (List.replicate 11 0x41) ∧ (List.replicate 11 (0x41 : Byte)).length ≤ 11) ∧
    ([0, 0, 0, 0, 0, 0] : List Byte).length = 6 ∧
    (1 ≤ 1 ∧ 1 ≤ 256 ∧ 1 ≤ 256 ∧ 256 ≤ 256) := by
  simp only [AsciiText]; decide

/-- RawKindsRoundTrip: the least and the greatest length, both powers of two, and one that is not. -/
theorem witness_raw :
    (1 ≤ ([0] : List Byte).length ∧ ([0] : List Byte).length ≤ 32 ∧ ∃ n, ([0] : List Byte).length = 2 ^ n) ∧
    (List.replicate 32 (0 : Byte)).length ≤ 32 ∧
    (1 ≤ ([0, 0, 0] : List Byte).length ∧ 7 ≤ 7) :=
  ⟨⟨by decide, by decide, 0, rfl⟩, by decide, by decide⟩

/-- EncodeRefusalsInOrder, ranges: each clause at its boundary. -/
theorem witness_refused_ranges :
    64 ≤ 64 ∧ 255 < 256 ∧ 2 ^ 32 ≤ 2 ^ 32 ∧
    (([] : List Nat) = [] ∨ 4 < ([] : List Nat).length) ∧ 4 < [1, 1, 1, 1, 1].length ∧
    (∃ c ∈ [257], c = 0 ∨ 256 < c) ∧ (∃ c ∈ [0], c = 0 ∨ 256 < c) ∧
    ¬ (VersionOk ⟨16, 0, 0, 0⟩ ∧ VersionOk ⟨0, 0, 0, 0⟩) ∧ 7 < 8 ∧ 15 < 16 ∧
    (∃ w ∈ [0x10000], 0xFFFF < w) ∧
    (15 ≤ 15 ∧ (∀ w ∈ List.replicate 17 0xFFFF, w ≤ 0xFFFF) ∧ 16 < (List.replicate 17 0xFFFF).length) := by
  simp only [VersionOk]; decide

/-- EncodeRefusalsInOrder, texts and flag operands: each clause at its boundary. -/
theorem witness_refused_texts :
    ¬ AsciiText [0x00] ∧ ¬ AsciiText [0x80] ∧
    (∃ fl : List Byte, some [0, 0, 0, 0, 0] = some fl ∧ fl.length ≠ 6) ∧
    (AsciiText (List.replicate 12 0x41) ∧ 12 ≤ (List.replicate 12 (0x41 : Byte)).length) ∧
    (∃ fl : List Byte, some [0, 0, 0, 0, 0, 0] = some fl ∧ fl.length = 6 ∧
      6 ≤ (List.replicate 6 (0x41 : Byte)).length) ∧
    BadFlagArg (some (.byteValue 256)) ∧ BadFlagArg (some (.names [.other "x"])) ∧
    ¬ BadFlagArg (some (.byteValue 255)) ∧ ¬ BadFlagArg none := by
  refine ⟨by simp [AsciiText], by simp [AsciiText], ⟨_, rfl, by decide⟩,
    ⟨by simp only [AsciiText]; decide, by decide⟩, ⟨_, rfl, by decide, by decide⟩, by simp [BadFlagArg],
    ⟨"x", by simp⟩, by simp [BadFlagArg], fun h => h⟩

/-- ModeCombosRoundTrip: one word, sixteen words (powers of two), three words. -/
theorem witness_words :
    (15 ≤ 15 ∧ 1 ≤ [0xFFFF].length ∧ (∀ w ∈ [0xFFFF], w ≤ 0xFFFF) ∧ ∃ n, [0xFFFF].length = 2 ^ n) ∧
    (List.replicate 16 0).length ≤ 16 ∧ (1 ≤ [1, 2, 3].length ∧ [1, 2, 3].length ≤ 16) :=
  ⟨⟨by decide, by decide, by decide, 0, rfl⟩, by decide, by decide⟩

/-- MappingByNames: operands in range, a set of names and the greatest byte value. -/
theorem witness_names : ¬ BadFlagArg (some (.names [.null, .notApplicable])) ∧
    ¬ BadFlagArg (some (.byteValue 255)) ∧ 15 ≤ 15 := by simp [BadFlagArg]

/-- The names of 42_info.md R186's example, encoded: `0xC4` and `0x01`, and the ambiguous name flagged. -/
theorem test_build_mapping :
    buildMsg (.infoMapping 0 (some (.names [.discrete, .funcMapping2, .null]))
      (some (.names [.notApplicable]))) =
        .ok { bytes := [0x88, 0x05, 0xC4, 0x01, 0xB7], ambiguousName := true } := by decide

/-- InfoRoundTrip: 42_info.md R196's example, encoded with its flag, and a reserved format. -/
theorem test_build_format :
    buildMsg (.infoFormat 0 16 3 4 1) =
      .ok { bytes := [0x90, 0x80, 0x10, 0x03, 0x04, 0x01, 0xF9], sizeViolation := true } ∧
    (∃ b, buildMsg (.infoFormat 15 255 4 255 255) = .ok b ∧ b.formatReserved = true) :=
  ⟨by decide, _, rfl, rfl⟩

/-- WriteQueryBytes: a query of one frame that is built and one that is refused, an EXT_MODE frame among
them (95_test_vectors.md section 2.4), and an encoded write that is marked. -/
theorem witness_frame_query :
    built (.cmdExtMode [0x08]) = some [0x46, 0x08, 0xB1] ∧
    encodeQuery cfg0 (.frame (.cmdExtMode [0x08])) = .ok ⟨[0x46, 0x08, 0xB1], false⟩ ∧
    refusedAs (.cmdExtMode []) = some (.sizeOutOfRange 0) ∧
    encodeQuery cfg0 (.frame (.cmdExtMode [])) = .error (.sizeOutOfRange 0) ∧
    (∃ eq, encodeQuery cfg0 (.write 8 [0] false) = .ok eq ∧ eq.multipart = true) :=
  ⟨by decide, by decide, by decide, by decide, _, rfl, rfl⟩

/-- WriteQueryBytes: each clause on writes at its boundaries. -/
theorem witness_write :
    (15 ≤ 15 ∧ 8 ≤ 8 ∧ 7 < 8 ∧ 1 ≤ ([0] : List Byte).length) ∧ 15 < 16 ∧
    ([] : List Byte).length = 0 ∧ 32 < (List.replicate 33 (0 : Byte)).length := by decide

/-- The kinds with fixed payload lengths: lengths beside the allowed ones. -/
theorem witness_lengths :
    ([0, 0] : List Byte).length ≠ 1 ∧ ([0, 0] : List Byte).length ∈ [1, 2, 4] ∧
    (List.replicate 8 (0 : Byte)).length ∉ [1, 2, 4] ∧ (List.replicate 8 (0 : Byte)).length ≠ 4 ∧
    (List.replicate 16 (0 : Byte)).length ≠ 8 ∧ ([0] : List Byte).length ≠ 2 ∧
    (List.replicate 32 (0 : Byte)).length ≠ 1 := by decide

/-- CmdExtModeCompletes: with no frame held and with one. -/
theorem witness_ext_hold : (active []).extHold = none ∧
    { active [] with extHold := some (sysFrame 0 4) }.extHold ≠ none := by decide

/-- StepRunsDecodedFrame: at a frame boundary and at a checksum byte. -/
theorem witness_frame_complete :
    (NextEvent (active [.event (.rx 0x04) 30]) (.rx 0x04) 30 [] ∧
      (active [.event (.rx 0x04) 30]).rxState = .idle ∧
      decode ((active [.event (.rx 0x04) 30]).frameBytes 0x04) = .ok (.sys 0 4, [])) ∧
    (NextEvent (midFrame [0x40, 0x22] [.event (.rx 0x9D) 30]) (.rx 0x9D) 30 [] ∧
      (midFrame [0x40, 0x22] [.event (.rx 0x9D) 30]).phase = .active ∧
      (midFrame [0x40, 0x22] [.event (.rx 0x9D) 30]).rxState = .chk ∧
      decode ((midFrame [0x40, 0x22] [.event (.rx 0x9D) 30]).frameBytes 0x9D) =
        .ok (.cmdType 0 [0x22] 0x9D, [])) :=
  ⟨⟨rfl, by decide, by decide⟩, rfl, by decide, by decide, by decide⟩

/-- The decoder invariant at a subtype byte. -/
theorem witness_decoder_inv_sub : DecoderInv (midFrame [0x88] [.event (.rx 0x07) 30]) ∧
    (midFrame [0x88] [.event (.rx 0x07) 30]).rxState = .sub :=
  ⟨⟨fun _ => by simp only [MidFrame]; decide, fun h => absurd h (by decide),
    fun h => absurd h (by decide)⟩, by decide⟩

/-- The decoder invariant at a payload byte, inside the payload. -/
theorem witness_decoder_inv_pay : DecoderInv (midFrame [0x88, 0x07, 0xDE] [.event (.rx 0xAD) 30]) ∧
    (midFrame [0x88, 0x07, 0xDE] [.event (.rx 0xAD) 30]).rxState = .pay :=
  ⟨⟨fun h => absurd h (by decide), fun _ => by simp only [MidFrame]; decide,
    fun h => absurd h (by decide)⟩, by decide⟩

/-- The decoder invariant at a checksum byte. -/
theorem witness_decoder_inv_chk : DecoderInv (midFrame [0x88, 0x07, 0xDE, 0xAD] [.event (.rx 0x03) 30]) ∧
    (midFrame [0x88, 0x07, 0xDE, 0xAD] [.event (.rx 0x03) 30]).rxState = .chk :=
  ⟨⟨fun h => absurd h (by decide), fun h => absurd h (by decide),
    fun _ => by simp only [MidFrame]; decide⟩, by decide⟩

/-- StepKeepsDecoderInv: such a state takes a step. -/
theorem witness_decoder_step : ∃ t, step (midFrame [0x88, 0x07, 0xDE, 0xAD] [.event (.rx 0x03) 30]) =
    .next t := ⟨_, rfl⟩

/-- StepKeepsSessionInv: a state with a held frame meets the invariant and takes a step. -/
theorem witness_session_inv :
    SessionInv { active [.event .idle 30] with
      extHold := some (cmdFrame 6 0 [0x08] 0xB1 0xB1 (.cmdExtMode [0x08])), multipartPending := true } ∧
    ∃ t, step { active [.event .idle 30] with
      extHold := some (cmdFrame 6 0 [0x08] 0xB1 0xB1 (.cmdExtMode [0x08])), multipartPending := true } =
        .next t :=
  ⟨by simp [SessionInv, WellFormedCfg, active, resetWith, cfg0, State.reset, cmdFrame], _, rfl⟩

/-- StepCompletesOrRefusesConfig: each of its three outcomes occurs. -/
theorem witness_step_outcomes :
    DecoderInv (active []) ∧ step (active []) = .next (active []) ∧
    step { State.reset with inputs := [.event .start 0] } = .refused .illFormedConfig ∧
    step (active [.configure cfg0]) = .refused .configInSession :=
  ⟨by simp [DecoderInv, active, resetWith, State.reset], rfl, rfl, rfl⟩

/-- UndefinedRegistersReachNoOutput: two states that differ in registers that hold no defined value. -/
theorem witness_same_to_host :
    DecoderInv (midFrame [0x40] [.event (.rx 0x22) 30]) ∧
    SameToHost (midFrame [0x40] [.event (.rx 0x22) 30])
      { midFrame [0x40] [.event (.rx 0x22) 30] with
        rxSub := 0xAA, rxBuf := Vector.replicate 32 0xFF, activeBaud := 7, settleDeadline := 3 } ∧
    ∃ t, step (midFrame [0x40] [.event (.rx 0x22) 30]) = .next t :=
  ⟨⟨fun h => absurd h (by decide), fun _ => by simp only [MidFrame]; decide,
    fun h => absurd h (by decide)⟩, by simp only [SameToHost]; decide, _, rfl⟩

/-- ResetEvent, in a session. -/
theorem witness_reset : NextEvent (active [.event .reset 30]) .reset 30 [] := rfl

/-- StartEvent: with a well-formed configuration, and without. -/
theorem witness_start :
    (NextEvent (resetWith [.event .start 0]) .start 0 [] ∧ (resetWith []).phase = .disconnected ∧
      WellFormedCfg (resetWith []).tickNs (resetWith []).cfg) ∧
    ¬ WellFormedCfg State.reset.tickNs State.reset.cfg :=
  ⟨⟨rfl, rfl, by simp only [WellFormedCfg]; decide⟩, by simp only [WellFormedCfg]; decide⟩

/-- DisconnectedEvents. -/
theorem witness_disconnected :
    NextEvent (resetWith [.event (.rx 0x00) 0]) (.rx 0x00) 0 [] ∧
    NextEvent (resetWith [.event (.submit (.frame (.sys 0))) 0]) (.submit (.frame (.sys 0))) 0 [] ∧
    (resetWith []).phase = .disconnected := ⟨rfl, rfl, rfl⟩

/-- HandshakeCapture: a byte in the middle, the last of a match, the last of a mismatch with two attempts
and with one. -/
theorem witness_capture :
    (NextEvent (shaking .capture 2 [.event (.rx 0x04) 8]) (.rx 0x04) 8 [] ∧
      (shaking .capture 2 []).phase = .handshaking ∧ (shaking .capture 2 []).hsStep = .capture ∧
      (shaking .capture 2 []).hsBuf ++ [0x04] ≠ cfg0.refBlob) ∧
    [0x40, 0x22, 0x9D] ++ [0x04] = cfg0.refBlob ∧
    (([0x40, 0x22, 0x9D] ++ [0x05] : List Byte).length = cfg0.refBlob.length ∧
      [0x40, 0x22, 0x9D] ++ [0x05] ≠ cfg0.refBlob) ∧
    2 ≤ (shaking .capture 2 []).hsLeft ∧ (shaking .capture 1 []).hsLeft ≤ 1 :=
  ⟨⟨rfl, rfl, rfl, by decide⟩, by decide, by decide, by decide, by decide⟩

/-- HandshakeOtherEvents: each event, the settle delay one tick before its end. -/
theorem witness_handshake :
    (NextEvent (shaking .capture 2 [.event .idle 5]) .idle 5 [] ∧
      (shaking .capture 2 []).hsStep = .capture) ∧
    (NextEvent (shaking .settle 2 [.event .idle 17]) .idle 17 [] ∧
      17 < (shaking .settle 2 []).settleDeadline ∧ (shaking .settle 2 []).hsStep = .settle) ∧
    NextEvent (shaking .settle 2 [.event (.rx 0x00) 17]) (.rx 0x00) 17 [] ∧
    NextEvent (shaking .capture 2 [.event .start 5]) .start 5 [] ∧
    NextEvent (shaking .capture 2 [.event .closed 5]) .closed 5 [] ∧
    NextEvent (shaking .capture 2 [.event (.submit (.frame (.sys 0))) 5]) (.submit (.frame (.sys 0))) 5 [] :=
  ⟨⟨rfl, rfl⟩, ⟨rfl, by decide, rfl⟩, rfl, rfl, rfl, rfl⟩

/-- ActivationBeforeTheEvent: at the deadline itself, with an event that is then fatal. -/
theorem witness_activation :
    NextEvent (shaking .settle 2 [.event .closed 18]) .closed 18 [] ∧ Event.closed ≠ .reset ∧
    (shaking .settle 2 []).phase = .handshaking ∧ (shaking .settle 2 []).hsStep = .settle ∧
    (shaking .settle 2 []).settleDeadline ≤ 18 := ⟨rfl, by decide, rfl, rfl, by decide⟩

/-- ActiveFatalEvents: each clause. -/
theorem witness_active_fatal :
    NextEvent (active [.event .closed 30]) .closed 30 [] ∧
    (NextEvent (midFrame [0xD8] [.event .idle 30]) .idle 30 [] ∧ (midFrame [0xD8] []).rxState ≠ .idle) ∧
    (NextEvent (active [.event .idle 30]) .idle 30 [] ∧ (active []).rxState = .idle) ∧
    (64 ≤ (0xFF : Byte).toNat ∧ 6 ≤ (0xFF : Byte).toNat / 8 % 8) :=
  ⟨rfl, ⟨rfl, by decide⟩, ⟨rfl, rfl⟩, by decide⟩

/-- ActiveFrameBytes: each clause, the payload at its first and its last register. -/
theorem witness_frame_bytes :
    (64 ≤ (0x40 : Byte).toNat ∧ (0x40 : Byte).toNat / 8 % 8 < 6) ∧ (active []).rxState = .idle ∧
    (midFrame [0x80] []).rxState = .sub ∧
    ((midFrame [0xE8] []).rxState = .pay ∧ (midFrame [0xE8] []).rxCnt.toNat = 0) ∧
    { midFrame [0xE8] [] with rxCnt := 31 }.rxCnt.toNat < 32 := by decide

/-- ActiveHostEvents: each clause. -/
theorem witness_active_host :
    NextEvent (active [.event .start 30]) .start 30 [] ∧
    (NextEvent (active [.event (.submit (.frame (.sys 0))) 30]) (.submit (.frame (.sys 0))) 30 [] ∧
      (active []).pendingQuery = none) ∧
    { active [] with pendingQuery := some ⟨[0x04], false⟩ }.pendingQuery ≠ none ∧
    encodeQuery cfg0 (.frame (.sys 64)) = .error .fieldOutOfRange ∧
    encodeQuery cfg0 (.frame (.sys 63)) = .ok ⟨[0x3F], false⟩ :=
  ⟨rfl, ⟨rfl, rfl⟩, by decide, by decide, by decide⟩

/-- SchedulerTests: each test at its boundary. -/
theorem witness_scheduler :
    cfg0.keepaliveInterval ≤ 120 - (active []).lastKeepaliveTime ∧
    119 - (active []).lastKeepaliveTime < cfg0.keepaliveInterval ∧
    ((active []).multipartPending = false ∧ cfg0.minQuerySpacing ≤ 40 - (active []).lastQueryTime) ∧
    39 - (active []).lastQueryTime < cfg0.minQuerySpacing := by decide

/-- NoQueryWhileMultipart: a waiting query held back. -/
theorem witness_multipart : ∃ t, step { active [.event .idle 200] with
    multipartPending := true, pendingQuery := some ⟨[0x04], false⟩ } = .next t ∧
    t.phase = .active ∧ t.multipartPending = true := ⟨_, rfl, rfl, rfl⟩

/-- QuerySpacingKept: a query that leaves at exactly the spacing. -/
theorem witness_spacing : ∃ t, step { active [.event .idle 40] with
    pendingQuery := some ⟨[0x04], false⟩ } = .next t ∧ t.phase = .active ∧ t.pendingQuery = none :=
  ⟨_, rfl, rfl, rfl⟩

/-- KeepAliveGapBounded: events at 119 and 120, with a gap of 1, and the timer re-armed at 120. -/
theorem witness_keepalive : ∃ t, step (active [.event .idle 120]) = .next t ∧ t.phase = .active ∧
    (active []).lastKeepaliveTime ≤ 119 ∧ 119 ≤ 120 ∧ 120 ≤ 119 + 1 ∧
    119 - (active []).lastKeepaliveTime < cfg0.keepaliveInterval ∧
    t.lastKeepaliveTime ≠ (active []).lastKeepaliveTime :=
  ⟨_, rfl, rfl, by decide, by decide, by decide, by decide, by decide⟩

/-- PhaseEntries: a step out of `Disconnected` and a step into `Active`. -/
theorem witness_phases :
    (∃ t, step (resetWith [.event .start 0]) = .next t ∧ t.phase ≠ .disconnected) ∧
    (∃ t, step (shaking .settle 2 [.event .idle 18]) = .next t ∧ t.phase = .active) :=
  ⟨⟨_, rfl, by decide⟩, _, rfl, rfl⟩

/-- ConditionDiscipline, TransmitByPhase: a fatal step, a step that transmits and delivers. -/
theorem witness_steps :
    (∃ t, step (active [.event .closed 30]) = .next t ∧ t.phase = .disconnected) ∧
    (∃ t, step (active [.event (.rx 0x04) 200]) = .next t ∧ t.outputs.length = 2) :=
  ⟨⟨_, rfl, rfl⟩, _, rfl, rfl⟩

/-- ConfigAndBaudWriters: a configuration write in `Disconnected` and one in a session, a state with no
input, and a step that answers next. -/
theorem witness_config :
    ({ State.reset with inputs := [.configure cfg0] }.inputs = .configure cfg0 :: [] ∧
      { State.reset with inputs := [.configure cfg0] }.phase = .disconnected) ∧
    ((active [.configure cfg0]).inputs = .configure cfg0 :: [] ∧
      (active [.configure cfg0]).phase ≠ .disconnected) ∧
    (active []).inputs = [] ∧
    (∃ t, step { State.reset with inputs := [.configure cfg0] } = .next t ∧ t.cfg = cfg0) :=
  ⟨⟨rfl, rfl⟩, ⟨rfl, by decide⟩, rfl, _, rfl, rfl⟩

/-- ReceivedByteIsCounted. -/
theorem witness_counted : NextEvent (active [.event (.rx 0x40) 30]) (.rx 0x40) 30 [] ∧
    Event.rx 0x40 ≠ .reset ∧ ∃ t, step (active [.event (.rx 0x40) 30]) = .next t ∧ t.rxPos = 1 :=
  ⟨rfl, by decide, _, rfl, rfl⟩

end Sys2Proof.Tests
end

/-! SUPPORT. The header codec in closed form: what the decoder says of an assembled header, which size
class is the least one, and what the search of `encode_header` answers (30_encoding.md R96 to R101). -/

namespace Sys2Proof.Machine

open Sys2Proof.Laws.EncodedSize (categoryOf_headerByte sizeField_headerByte)

/-! ### The header decoder on an assembled header -/

theorem codeField_headerByte (cat : Category) (sc m : Field3) : codeField (headerByte cat sc m) = m := by
  cases cat <;> revert sc m <;> decide

/-- The decoder gives back the fields of a header that names a defined size class (30_encoding.md R96). -/
theorem decodeHeader_headerByte {cat : Category} {sc : Field3} (m : Field3) (hcat : cat ≠ .sys)
    (hsc : sc.toNat < 6) :
    decodeHeader (headerByte cat sc m) = .frame cat m (2 ^ sc.toNat + overhead cat) := by
  simp only [decodeHeader, categoryOf_headerByte, sizeField_headerByte, codeField_headerByte]
  rw [if_neg hcat, if_neg (Nat.not_le.2 hsc)]

theorem decodedTotal_headerByte {cat : Category} {sc : Field3} (m : Field3) (hcat : cat ≠ .sys)
    (hsc : sc.toNat < 6) : decodedTotal (headerByte cat sc m) = 2 ^ sc.toNat + overhead cat := by
  rw [decodedTotal, decodeHeader_headerByte m hcat hsc]

/-! ### The least size class -/

/-- `sc` is a defined size class that holds `req` bytes, and every smaller class is too small. -/
def IsLeastSizeClass (req : Nat) (sc : Field3) : Prop :=
  sc.toNat < 6 ∧ req ≤ 2 ^ sc.toNat ∧ ∀ j, j < sc.toNat → 2 ^ j < req

/-- The list `leastSizeClass` searches holds the class `i` at position `i`. -/
theorem toNat_getElem_sizeClasses :
    ∀ i, (h : i < 6) → (([0, 1, 2, 3, 4, 5] : List Field3)[i]'h).toNat = i := by decide

theorem isLeastSizeClass_of_leastSizeClass {req : Nat} {sc : Field3} (h : leastSizeClass req = some sc) :
    IsLeastSizeClass req sc := by
  obtain ⟨hfits, i, hi, rfl, hbelow⟩ := List.find?_eq_some_iff_getElem.1 h
  refine ⟨?_, of_decide_eq_true hfits, fun j hj => ?_⟩
  · rw [toNat_getElem_sizeClasses i hi]
    exact hi
  · rw [toNat_getElem_sizeClasses i hi] at hj
    have hsmall := hbelow j hj
    rw [toNat_getElem_sizeClasses j (hj.trans hi)] at hsmall
    simpa using hsmall

/-- Class 5 holds every length up to 32, so the search for a class cannot come back empty. -/
theorem exists_leastSizeClass {req : Nat} (h : req ≤ 32) : ∃ sc, leastSizeClass req = some sc :=
  Option.isSome_iff_exists.1 (List.find?_isSome.2 ⟨5, by simp, decide_eq_true h⟩)

/-! ### The search -/

/-- The frame a least size class announces holds the length and the overhead: the test of the search. -/
theorem IsLeastSizeClass.total_suffices {cat : Category} {len : Nat} {sc : Field3}
    (h : IsLeastSizeClass len sc) (m : Field3) (hcat : cat ≠ .sys) :
    len + overhead cat ≤ decodedTotal (headerByte cat sc m) := by
  obtain ⟨hsc, hfits, -⟩ := h
  rw [decodedTotal_headerByte m hcat hsc]
  exact Nat.add_le_add_right hfits _

/-- The size class chosen for the length itself passes the test of the search, so the first turn returns
whatever fuel is left (30_encoding.md R99). -/
theorem headerSearch_of_leastSizeClass {cat : Category} {len : Nat} {sc : Field3} (m : Field3)
    (fuel : Nat) (hcat : cat ≠ .sys) (h : leastSizeClass len = some sc) :
    headerSearch cat m len (fuel + 1) len = some (headerByte cat sc m) := by
  have hleast := isLeastSizeClass_of_leastSizeClass h
  rw [headerSearch, h]
  exact if_pos (hleast.total_suffices m hcat)

/-! ### The outcomes of `encode_header` -/

@[simp] theorem require_true {α : Type} (c : Condition) (k : Except Condition α) : require true c k = k :=
  rfl

@[simp] theorem require_false {α : Type} (c : Condition) (k : Except Condition α) :
    require false c k = .error c := rfl

/-- SYS or a field above 7 is refused before the length is looked at (30_encoding.md R101). -/
theorem encodeHeader_of_field_out_of_range {cat : Category} {m : Nat} (len : Nat)
    (h : cat = .sys ∨ 7 < m) : encodeHeader cat m len = .error .fieldOutOfRange := by
  have htest : (decide (m ≤ 7) && cat != .sys) = false := by
    rcases h with rfl | hm
    · exact Bool.and_false _
    · rw [decide_eq_false (Nat.not_le.2 hm), Bool.false_and]
  rw [encodeHeader, htest, require_false]

/-- CMD, INFO and DATA with a field up to 7 pass the first test (30_encoding.md R101). -/
theorem encodeHeader_field_test {cat : Category} {m : Nat} (hcat : cat ≠ .sys) (hm : m ≤ 7) :
    (decide (m ≤ 7) && cat != .sys) = true := by
  rw [decide_eq_true hm, Bool.true_and, bne_iff_ne]
  exact hcat

/-- A payload of 0 or more than 32 bytes has no size class (30_encoding.md R100). -/
theorem encodeHeader_of_size_out_of_range {cat : Category} {m len : Nat} (hcat : cat ≠ .sys) (hm : m ≤ 7)
    (h : len = 0 ∨ 32 < len) : encodeHeader cat m len = .error (.sizeOutOfRange len) := by
  have htest : (decide (1 ≤ len) && decide (len ≤ 32)) = false := by
    rw [← Bool.decide_and, decide_eq_false]
    omega
  rw [encodeHeader, encodeHeader_field_test hcat hm, require_true, htest, require_false]

/-- The header of the least size class (30_encoding.md R98, R99). -/
theorem encodeHeader_of_leastSizeClass {cat : Category} {m len : Nat} {sc : Field3} (hcat : cat ≠ .sys)
    (hm : m ≤ 7) (hpos : 1 ≤ len) (hle : len ≤ 32) (h : leastSizeClass len = some sc) :
    encodeHeader cat m len = .ok (headerByte cat sc (BitVec.ofNat 3 m)) := by
  have htest : (decide (1 ≤ len) && decide (len ≤ 32)) = true := by
    rw [decide_eq_true hpos, decide_eq_true hle, Bool.and_true]
  rw [encodeHeader, encodeHeader_field_test hcat hm, require_true, htest, require_true,
    headerSearch_of_leastSizeClass _ 32 hcat h]

/-! ### The obligations -/

/-- Settles O8: the least size class exists up to 32 bytes, passes the first test of the search, and so
is what the search and the encoder answer. -/
theorem encodeHeaderOutcomes : Obligations.EncodeHeaderOutcomes := by
  refine ⟨fun _ _ len h => encodeHeader_of_field_out_of_range len h,
    fun _ _ _ hcat hm h => encodeHeader_of_size_out_of_range hcat hm h,
    fun cat m len hcat hm hpos hle => ?_⟩
  obtain ⟨sc, h⟩ := exists_leastSizeClass hle
  have hleast := isLeastSizeClass_of_leastSizeClass h
  have htotal := hleast.total_suffices (BitVec.ofNat 3 m) hcat
  obtain ⟨hsc, hfits, hsmaller⟩ := hleast
  exact ⟨sc, hsc, hfits, hsmaller, headerSearch_of_leastSizeClass _ 0 hcat h,
    encodeHeader_of_leastSizeClass hcat hm hpos hle h, htotal⟩

/-- Settles O6: the three bytes are the DATA headers of size class 0 mode 0, size class 3 mode 6 and size
class 2 mode 0 (30_encoding.md R97), which the decoder takes apart again. -/
theorem headerExamples : Obligations.HeaderExamples :=
  have hdata : Category.data ≠ .sys := by decide
  ⟨decodeHeader_headerByte (sc := 0) 0 hdata (by decide),
    decodeHeader_headerByte (sc := 3) 6 hdata (by decide),
    decodeHeader_headerByte (sc := 2) 0 hdata (by decide)⟩

end Sys2Proof.Machine

/-! SUPPORT. The frame decoder byte by byte: what each `FsByte` case leaves in the registers, and the
simulation of the pure function by the byte-serial machine (44_frame_decoder.md R222 to R231). -/

namespace Sys2Proof

/-! ### Reading the bytes of a frame -/

/-- The raw frame is one that can stand on the wire: its format is that of the header's category, its size
class is defined and its payload has the declared length (30_encoding.md R90, R93). -/
def RawFrame.WellFormed : RawFrame → Prop
  | .single h => categoryOf h = .sys
  | .plain h p _ => categoryOf h ≠ .sys ∧ categoryOf h ≠ .info ∧ (sizeField h).toNat < 6 ∧
      p.length = 2 ^ (sizeField h).toNat
  | .withSub h _ p _ => categoryOf h = .info ∧ (sizeField h).toNat < 6 ∧
      p.length = 2 ^ (sizeField h).toNat

theorem decodeHeader_of_sys {h : Byte} (hcat : categoryOf h = .sys) :
    decodeHeader h = .sys (codeField h) := by
  simp [decodeHeader, hcat]

theorem decodeHeader_of_reserved {h : Byte} (hcat : categoryOf h ≠ .sys) (hsc : 6 ≤ (sizeField h).toNat) :
    decodeHeader h = .reserved (categoryOf h) (codeField h) (sizeField h) := by
  simp [decodeHeader, hcat, hsc]

theorem decodeHeader_of_framed {h : Byte} (hcat : categoryOf h ≠ .sys) (hsc : (sizeField h).toNat < 6) :
    decodeHeader h =
      .frame (categoryOf h) (codeField h) (2 ^ (sizeField h).toNat + overhead (categoryOf h)) := by
  simp [decodeHeader, hcat, Nat.not_le.2 hsc]

theorem takeBody_of_length_le {n : Nat} {bs : List Byte} (h : bs.length ≤ n) : takeBody n bs = none := by
  simp [takeBody, List.drop_eq_nil_of_le h]

theorem takeBody_append {n : Nat} {p : List Byte} (c : Byte) (rest : List Byte) (h : p.length = n) :
    takeBody n (p ++ c :: rest) = some (p, c, rest) := by
  subst h
  simp [takeBody]

theorem readFrame_sys {h : Byte} (t : List Byte) (hcat : categoryOf h = .sys) :
    readFrame (h :: t) = .ok (.single h, t) := by
  rw [readFrame, decodeHeader_of_sys hcat]

theorem readFrame_reserved {h : Byte} (t : List Byte) (hcat : categoryOf h ≠ .sys)
    (hsc : 6 ≤ (sizeField h).toNat) : readFrame (h :: t) = .error (.reservedSizeClass h) := by
  rw [readFrame, decodeHeader_of_reserved hcat hsc]

/-- A CMD or DATA frame, cut before its checksum byte or whole (44_frame_decoder.md R222, R223). -/
theorem readFrame_plain {h : Byte} (t : List Byte) (hsys : categoryOf h ≠ .sys)
    (hinfo : categoryOf h ≠ .info) (hsc : (sizeField h).toNat < 6) :
    (t.length ≤ 2 ^ (sizeField h).toNat → readFrame (h :: t) = .error .truncated) ∧
    (∀ p c rest, p.length = 2 ^ (sizeField h).toNat → t = p ++ c :: rest →
      readFrame (h :: t) = .ok (.plain h p c, rest)) := by
  rw [readFrame, decodeHeader_of_framed hsys hsc]
  cases hcat : categoryOf h with
  | sys => exact absurd hcat hsys
  | info => exact absurd hcat hinfo
  | cmd | data =>
    exact ⟨fun hcut => by simp [overhead, takeBody_of_length_le hcut],
      fun p c rest hp ht => by simp [ht, overhead, takeBody_append c rest hp]⟩

/-- An INFO frame, cut before its checksum byte or whole (44_frame_decoder.md R222, R223). -/
theorem readFrame_info {h : Byte} (t : List Byte) (hcat : categoryOf h = .info)
    (hsc : (sizeField h).toNat < 6) :
    (t.length ≤ 2 ^ (sizeField h).toNat + 1 → readFrame (h :: t) = .error .truncated) ∧
    (∀ sub p c rest, p.length = 2 ^ (sizeField h).toNat → t = sub :: (p ++ c :: rest) →
      readFrame (h :: t) = .ok (.withSub h sub p c, rest)) := by
  have hsys : categoryOf h ≠ .sys := by simp [hcat]
  rw [readFrame, decodeHeader_of_framed hsys hsc, hcat]
  refine ⟨fun hcut => ?cut, fun sub p c rest hp ht => ?whole⟩
  case cut =>
    cases t with
    | nil => rfl
    | cons sub p =>
      have hp : p.length ≤ 2 ^ (sizeField h).toNat := Nat.le_of_succ_le_succ hcut
      simp [overhead, takeBody_of_length_le hp]
  case whole => simp [ht, overhead, takeBody_append c rest hp]

/-- One turn of `decode_stream` takes exactly the bytes of the frame at the head (44_frame_decoder.md
R222). -/
theorem readFrame_bytes {raw : RawFrame} (hw : raw.WellFormed) (rest : List Byte) :
    readFrame (raw.bytes ++ rest) = .ok (raw, rest) := by
  cases raw with
  | single h => exact readFrame_sys rest hw
  | plain h p c =>
    obtain ⟨hsys, hinfo, hsc, hlen⟩ := hw
    obtain ⟨-, hwhole⟩ := readFrame_plain (p ++ [c] ++ rest) hsys hinfo hsc
    exact hwhole p c rest hlen (List.append_assoc ..)
  | withSub h sub p c =>
    obtain ⟨hcat, hsc, hlen⟩ := hw
    obtain ⟨-, hwhole⟩ := readFrame_info (sub :: (p ++ [c]) ++ rest) hcat hsc
    exact hwhole sub p c rest hlen (congrArg (sub :: ·) (List.append_assoc ..))

/-! ### Selecting the message kind loses nothing -/

theorem headerByte_of_categoryOf {h : Byte} {cat : Category} (hcat : categoryOf h = cat) :
    headerByte cat (sizeField h) (codeField h) = h := by
  subst hcat
  revert h
  decide

theorem subtypeByte_fields (sub : Byte) : subtypeByte (subtypeIdOf sub) (plus8Of sub) = sub := by
  revert sub
  decide

theorem rawOf_selectCmd (h : Byte) (p : List Byte) (chk : Byte) :
    rawOf (selectCmd h p chk) = rawCmd (codeField h) (sizeField h) p chk := by
  unfold selectCmd
  split
  case h_8 hne0 hne1 hne2 hne3 hne4 hne5 hne6 =>
    simp only [imp_false] at hne0 hne1 hne2 hne3 hne4 hne5 hne6
    have hcode : codeField h = 7 := by bv_omega
    rw [rawOf, hcode]
  all_goals
    rename_i hcode
    exact congrArg (rawCmd · (sizeField h) p chk) (BitVec.eq_of_toNat_eq hcode.symm)

theorem rawOf_selectInfo (h sub : Byte) (p : List Byte) (chk : Byte) :
    rawOf (selectInfo h sub p chk) =
      rawInfo (subtypeIdOf sub) (sizeField h) (codeField h) (plus8Of sub) p chk := by
  unfold selectInfo
  split
  case h_9 => rfl
  all_goals
    rename_i hid
    exact congrArg (rawInfo · (sizeField h) (codeField h) (plus8Of sub) p chk)
      (BitVec.eq_of_toNat_eq hid.symm)

/-- The instruction selected for a frame stands for that frame: no byte of it is lost. -/
theorem rawOf_instrOf {raw : RawFrame} (hw : raw.WellFormed) : rawOf (instrOf raw) = raw := by
  cases raw with
  | single h => rw [instrOf, rawOf, headerByte_of_categoryOf hw]
  | plain h p c =>
    obtain ⟨hsys, hinfo, -, -⟩ := hw
    cases hcat : categoryOf h with
    | sys => exact absurd hcat hsys
    | info => exact absurd hcat hinfo
    | cmd => rw [instrOf, if_pos hcat, rawOf_selectCmd, rawCmd, headerByte_of_categoryOf hcat]
    | data =>
      have hcmd : categoryOf h ≠ .cmd := by simp [hcat]
      rw [instrOf, if_neg hcmd, rawOf, headerByte_of_categoryOf hcat]
  | withSub h sub p c =>
    obtain ⟨hcat, -, -⟩ := hw
    rw [instrOf, rawOf_selectInfo, rawInfo, headerByte_of_categoryOf hcat, subtypeByte_fields]

end Sys2Proof

namespace Sys2Proof.Machine

open Sys2Proof.Safety (collected MidFrame DecoderInv NextEvent)

/-! ### Each case of `FsByte` -/

theorem fsByte_of_idle (b : Byte) {s : State} (hst : s.rxState = .idle) : fsByte b s = fsIdle b s := by
  simpa [hst] using fsByte_cases b s

theorem fsByte_of_sys {b : Byte} {s : State} (hst : s.rxState = .idle) (hcat : categoryOf b = .sys) :
    fsByte b s = (.complete (.sys (sizeField b) (codeField b)), takeByte s) := by
  rw [fsByte_of_idle b hst]
  simpa [hcat] using fsIdle_cases b s

theorem fsByte_of_reserved {b : Byte} {s : State} (hst : s.rxState = .idle) (hcat : categoryOf b ≠ .sys)
    (hsc : 6 ≤ (sizeField b).toNat) : fsByte b s = (.error b, takeByte s) := by
  rw [fsByte_of_idle b hst]
  simpa [hcat, hsc, Nat.not_lt.2 hsc] using fsIdle_cases b s

theorem fsByte_of_framed {b : Byte} {s : State} (hst : s.rxState = .idle) (hcat : categoryOf b ≠ .sys)
    (hsc : (sizeField b).toNat < 6) : fsByte b s = (.pending, latchHeader b (takeByte s)) := by
  rw [fsByte_of_idle b hst]
  simpa [hcat, hsc, Nat.not_le.2 hsc] using fsIdle_cases b s

theorem fsByte_of_sub (b : Byte) {s : State} (hst : s.rxState = .sub) :
    fsByte b s = (.pending, latchSubtype b (takeByte s)) := by
  simpa [hst] using fsByte_cases b s

theorem fsByte_of_pay (b : Byte) {s : State} (hst : s.rxState = .pay) (hcnt : s.rxCnt.toNat < 32) :
    fsByte b s = (.pending, latchPayload b (takeByte s)) := by
  simpa [hst, hcnt, Nat.not_le.2 hcnt] using fsByte_cases b s

theorem fsByte_of_chk {b : Byte} {s : State} {i : Instr} (hst : s.rxState = .chk)
    (hd : decode (s.frameBytes b) = .ok (i, [])) :
    fsByte b s = (.complete i, { takeByte s with rxState := .idle }) := by
  simpa [hst, hd] using fsByte_cases b s

/-! ### The registers and the bytes taken -/

/-- The bytes of the current frame taken so far: none at a frame boundary. -/
def taken (s : State) : List Byte := if s.rxState = .idle then [] else collected s

theorem taken_of_idle {s : State} (h : s.rxState = .idle) : taken s = [] := if_pos h

theorem taken_of_ne_idle {s : State} (h : s.rxState ≠ .idle) : taken s = collected s := if_neg h

theorem checksum_concat (bs : List Byte) (b : Byte) : checksum (bs ++ [b]) = checksum bs ^^^ b := by
  simp [checksum]

theorem decoderInv_of_idle {s : State} (h : s.rxState = .idle) : DecoderInv s := by
  simp [DecoderInv, h]

theorem decoderInv_iff_of_sub {s : State} (h : s.rxState = .sub) :
    DecoderInv s ↔ MidFrame s ∧ categoryOf s.rxHdr = .info ∧ s.rxCnt = 0 := by
  simp [DecoderInv, h]

theorem decoderInv_iff_of_pay {s : State} (h : s.rxState = .pay) :
    DecoderInv s ↔ MidFrame s ∧ s.rxCnt.toNat < s.rxLen.toNat := by
  simp [DecoderInv, h]

theorem decoderInv_iff_of_chk {s : State} (h : s.rxState = .chk) :
    DecoderInv s ↔ MidFrame s ∧ s.rxCnt = s.rxLen := by
  simp [DecoderInv, h]

theorem toNat_rxLen_le {s : State} (h : MidFrame s) : s.rxLen.toNat ≤ 32 := by
  obtain ⟨-, hsc, hlen, -⟩ := h
  rw [hlen]
  exact Nat.pow_le_pow_right (by decide) (Nat.le_of_lt_succ hsc) |>.trans (by decide : 2 ^ 5 ≤ 32)

theorem toNat_rxLen_pos {s : State} (h : MidFrame s) : 0 < s.rxLen.toNat := by
  obtain ⟨-, -, hlen, -⟩ := h
  rw [hlen]
  exact Nat.two_pow_pos _

theorem toNat_sizeShift : ∀ n, n < 6 → (1#6 <<< n).toNat = 2 ^ n := by decide

/-- One more byte at a position inside a frame: the header and the length stay, the accumulator takes the
byte in (10_state.md R26). -/
theorem midFrame_of_byte {s t : State} {b : Byte} (h : MidFrame s) (hhdr : t.rxHdr = s.rxHdr)
    (hlen : t.rxLen = s.rxLen) (hacc : t.rxAcc = s.rxAcc ^^^ b)
    (hcol : collected t = collected s ++ [b]) : MidFrame t := by
  obtain ⟨hcat, hsc, hl, ha⟩ := h
  refine ⟨hhdr ▸ hcat, hhdr ▸ hsc, ?_, ?_⟩
  · rw [hlen, hhdr, hl]
  · rw [hacc, ha, hcol, checksum_concat]

/-! ### A byte that leaves its frame incomplete -/

theorem collected_latchHeader (b : Byte) (s : State) : collected (latchHeader b s) = [b] := by
  by_cases hinfo : categoryOf b = .info <;> simp [collected, hinfo]

theorem collected_latchSubtype (b : Byte) {s : State} (hst : s.rxState = .sub)
    (hinfo : categoryOf s.rxHdr = .info) (hcnt : s.rxCnt = 0) :
    collected (latchSubtype b (takeByte s)) = collected s ++ [b] := by
  simp [collected, hst, hinfo, hcnt]

theorem collected_info {s : State} (hst : s.rxState ≠ .sub) (hinfo : categoryOf s.rxHdr = .info) :
    collected s = s.rxHdr :: s.rxSub :: s.rxBuf.toList.take s.rxCnt.toNat := by
  simp [collected, hst, hinfo]

theorem collected_plain {s : State} (hinfo : categoryOf s.rxHdr ≠ .info) :
    collected s = s.rxHdr :: s.rxBuf.toList.take s.rxCnt.toNat := by
  simp [collected, hinfo]

theorem take_setIfInBounds (v : Vector Byte 32) {n : Nat} (b : Byte) (h : n < 32) :
    (v.setIfInBounds n b).toList.take (n + 1) = v.toList.take n ++ [b] := by
  rw [Vector.toList_setIfInBounds, List.take_add_one, List.take_set_of_le (Nat.le_refl n),
    List.getElem?_set_self (by simpa using h), Option.toList_some]

/-- A payload byte lands in the register after those in use (44_frame_decoder.md R228). -/
theorem collected_latchPayload (b : Byte) {s : State} (hst : s.rxState = .pay)
    (hcnt : s.rxCnt.toNat < 32) :
    collected (latchPayload b (takeByte s)) = collected s ++ [b] := by
  have hnext : (latchPayload b (takeByte s)).rxCnt.toNat = s.rxCnt.toNat + 1 := by
    simp only [latchPayload_rxCnt, takeByte_rxCnt]
    bv_omega
  have hst' : (latchPayload b (takeByte s)).rxState ≠ .sub := by
    rw [latchPayload_rxState]
    split <;> decide
  have hbuf := take_setIfInBounds s.rxBuf b hcnt
  by_cases hinfo : categoryOf s.rxHdr = .info
  · rw [collected_info hst' hinfo, collected_info (by rw [hst]; decide) hinfo, hnext]
    exact congrArg (s.rxHdr :: s.rxSub :: ·) hbuf
  · rw [collected_plain (s := latchPayload b (takeByte s)) hinfo, collected_plain hinfo, hnext]
    exact congrArg (s.rxHdr :: ·) hbuf

/-- What a byte that does not complete a frame does: the invariant is kept and the byte joins those
taken. -/
structure TakesByte (b : Byte) (s t : State) : Prop where
  inv : DecoderInv t
  taken_eq : taken t = taken s ++ [b]
  rxPos_eq : t.rxPos = s.rxPos + 1

/-- A framed header begins a frame (44_frame_decoder.md R226). -/
theorem takesByte_latchHeader {b : Byte} {s : State} (hst : s.rxState = .idle)
    (hcat : categoryOf b ≠ .sys) (hsc : (sizeField b).toNat < 6) :
    TakesByte b s (latchHeader b (takeByte s)) := by
  have hcol := collected_latchHeader b (takeByte s)
  have hmid : MidFrame (latchHeader b (takeByte s)) := by
    refine ⟨hcat, hsc, toNat_sizeShift _ hsc, ?_⟩
    rw [hcol]
    rfl
  have htaken (hne : (latchHeader b (takeByte s)).rxState ≠ .idle) :
      taken (latchHeader b (takeByte s)) = taken s ++ [b] := by
    rw [taken_of_ne_idle hne, taken_of_idle hst, hcol, List.nil_append]
  by_cases hinfo : categoryOf b = .info
  · have ht : (latchHeader b (takeByte s)).rxState = .sub := if_pos hinfo
    exact ⟨(decoderInv_iff_of_sub ht).2 ⟨hmid, hinfo, rfl⟩, htaken (by rw [ht]; decide), rfl⟩
  · have ht : (latchHeader b (takeByte s)).rxState = .pay := if_neg hinfo
    exact ⟨(decoderInv_iff_of_pay ht).2 ⟨hmid, toNat_rxLen_pos hmid⟩, htaken (by rw [ht]; decide), rfl⟩

/-- A subtype byte is taken, whatever its value (44_frame_decoder.md R227). -/
theorem takesByte_latchSubtype (b : Byte) {s : State} (hst : s.rxState = .sub) (hinv : DecoderInv s) :
    TakesByte b s (latchSubtype b (takeByte s)) := by
  obtain ⟨hmid, hinfo, hcnt⟩ := (decoderInv_iff_of_sub hst).1 hinv
  have hcol := collected_latchSubtype b hst hinfo hcnt
  refine ⟨(decoderInv_iff_of_pay rfl).2 ⟨midFrame_of_byte hmid rfl rfl rfl hcol, ?_⟩, ?_, rfl⟩
  · simpa [hcnt] using toNat_rxLen_pos hmid
  · rw [taken_of_ne_idle (by simp), taken_of_ne_idle (by simp [hst]), hcol]

/-- A payload byte is taken; the last one leads to the checksum (44_frame_decoder.md R228). -/
theorem takesByte_latchPayload (b : Byte) {s : State} (hst : s.rxState = .pay) (hinv : DecoderInv s) :
    TakesByte b s (latchPayload b (takeByte s)) := by
  obtain ⟨hmid, hcnt⟩ := (decoderInv_iff_of_pay hst).1 hinv
  have hle := toNat_rxLen_le hmid
  have hcol := collected_latchPayload b hst (hcnt.trans_le hle)
  have hmid' := midFrame_of_byte (t := latchPayload b (takeByte s)) hmid rfl rfl rfl hcol
  have htaken (hne : (latchPayload b (takeByte s)).rxState ≠ .idle) :
      taken (latchPayload b (takeByte s)) = taken s ++ [b] := by
    rw [taken_of_ne_idle hne, taken_of_ne_idle (by simp [hst]), hcol]
  by_cases hlast : s.rxCnt + 1 = s.rxLen
  · have ht : (latchPayload b (takeByte s)).rxState = .chk := if_pos hlast
    exact ⟨(decoderInv_iff_of_chk ht).2 ⟨hmid', hlast⟩, htaken (by rw [ht]; decide), rfl⟩
  · have ht : (latchPayload b (takeByte s)).rxState = .pay := if_neg hlast
    have hlt : (s.rxCnt + 1).toNat < s.rxLen.toNat := by bv_omega
    exact ⟨(decoderInv_iff_of_pay ht).2 ⟨hmid', hlt⟩, htaken (by rw [ht]; decide), rfl⟩

/-! ### The checksum byte -/

/-- The frame the registers hold once `b` arrives as its checksum byte (44_frame_decoder.md R229). -/
def heldFrame (s : State) (b : Byte) : RawFrame :=
  if categoryOf s.rxHdr = .info then .withSub s.rxHdr s.rxSub s.payload b
  else .plain s.rxHdr s.payload b

theorem frameBytes_of_chk {s : State} (b : Byte) (hst : s.rxState = .chk) :
    s.frameBytes b = (heldFrame s b).bytes := by
  simp [State.frameBytes, hst, heldFrame]

theorem wellFormed_heldFrame {s : State} (b : Byte) (hmid : MidFrame s) : (heldFrame s b).WellFormed := by
  have hle := toNat_rxLen_le hmid
  obtain ⟨hcat, hsc, hlen, -⟩ := hmid
  have hp : s.payload.length = 2 ^ (sizeField s.rxHdr).toNat := by
    rw [State.payload, List.length_take, Vector.length_toList, ← hlen]
    omega
  by_cases hinfo : categoryOf s.rxHdr = .info
  · simpa [heldFrame, hinfo] using ⟨hinfo, hsc, hp⟩
  · simpa [heldFrame, hinfo] using ⟨hcat, hinfo, hsc, hp⟩

theorem coveredBytes_heldFrame {s : State} (b : Byte) (hst : s.rxState = .chk) (hcnt : s.rxCnt = s.rxLen) :
    coveredBytes (heldFrame s b) = collected s := by
  by_cases hinfo : categoryOf s.rxHdr = .info <;>
    simp [heldFrame, hinfo, coveredBytes, collected, hst, hcnt, State.payload]

theorem bytes_heldFrame (s : State) (b : Byte) :
    (heldFrame s b).bytes = coveredBytes (heldFrame s b) ++ [b] := by
  by_cases hinfo : categoryOf s.rxHdr = .info <;> simp [heldFrame, hinfo, coveredBytes, RawFrame.bytes]

/-- What a byte that completes a frame does: the bytes taken and the byte are that frame, its record is
the one of the pure function, and the decoder is back at a boundary (44_frame_decoder.md R229). -/
structure CompletesFrame (b : Byte) (s : State) (raw : RawFrame) (t : State) : Prop where
  wellFormed : raw.WellFormed
  bytes_eq : raw.bytes = taken s ++ [b]
  record_eq : frameRecord raw s.rxAcc = frameRecord raw (checksum (coveredBytes raw))
  idle : t.rxState = .idle
  rxPos_eq : t.rxPos = s.rxPos + 1

/-- A SYS byte is a frame of its own, whose record holds no checksum (44_frame_decoder.md R226). -/
theorem completesFrame_sys {b : Byte} {s : State} (hst : s.rxState = .idle) (hcat : categoryOf b = .sys) :
    CompletesFrame b s (.single b) (takeByte s) where
  wellFormed := hcat
  bytes_eq := by rw [taken_of_idle hst]; rfl
  record_eq := rfl
  idle := hst
  rxPos_eq := rfl

/-- The checksum byte completes the frame the registers hold (44_frame_decoder.md R229). -/
theorem completesFrame_chk (b : Byte) {s : State} (hst : s.rxState = .chk) (hinv : DecoderInv s) :
    CompletesFrame b s (heldFrame s b) { takeByte s with rxState := .idle } := by
  obtain ⟨hmid, hcnt⟩ := (decoderInv_iff_of_chk hst).1 hinv
  have hcov := coveredBytes_heldFrame b hst hcnt
  have hw := wellFormed_heldFrame b hmid
  obtain ⟨-, -, -, hacc⟩ := hmid
  exact
    { wellFormed := hw
      bytes_eq := by rw [bytes_heldFrame, hcov, taken_of_ne_idle (by simp [hst])]
      record_eq := by rw [hcov, hacc]
      idle := rfl
      rxPos_eq := rfl }

theorem decode_bytes {raw : RawFrame} (hw : raw.WellFormed) : decode raw.bytes = .ok (instrOf raw, []) := by
  have hread := readFrame_bytes hw []
  rw [List.append_nil] at hread
  rw [decode, hread]

/-! ### One byte of the simulation -/

/-- From a decoder position every byte is taken into the frame, is a reserved header at a boundary, or
completes a frame. -/
theorem fsByte_of_decoderInv (b : Byte) {s : State} (hinv : DecoderInv s) :
    (∃ t, fsByte b s = (.pending, t) ∧ TakesByte b s t) ∨
    (fsByte b s = (.error b, takeByte s) ∧ s.rxState = .idle ∧ categoryOf b ≠ .sys ∧
      6 ≤ (sizeField b).toNat) ∨
    (∃ raw t, fsByte b s = (.complete (instrOf raw), t) ∧ CompletesFrame b s raw t) := by
  cases hst : s.rxState with
  | idle =>
    by_cases hcat : categoryOf b = .sys
    · exact .inr (.inr ⟨.single b, _, fsByte_of_sys hst hcat, completesFrame_sys hst hcat⟩)
    · by_cases hsc : (sizeField b).toNat < 6
      · exact .inl ⟨_, fsByte_of_framed hst hcat hsc, takesByte_latchHeader hst hcat hsc⟩
      · have hres := Nat.not_lt.1 hsc
        exact .inr (.inl ⟨fsByte_of_reserved hst hcat hres, rfl, hcat, hres⟩)
  | sub => exact .inl ⟨_, fsByte_of_sub b hst, takesByte_latchSubtype b hst hinv⟩
  | pay =>
    obtain ⟨hmid, hcnt⟩ := (decoderInv_iff_of_pay hst).1 hinv
    exact .inl ⟨_, fsByte_of_pay b hst (hcnt.trans_le (toNat_rxLen_le hmid)),
      takesByte_latchPayload b hst hinv⟩
  | chk =>
    have hdone := completesFrame_chk b hst hinv
    have hdec : decode (s.frameBytes b) = .ok (instrOf (heldFrame s b), []) := by
      rw [frameBytes_of_chk b hst, decode_bytes hdone.wellFormed]
    exact .inr (.inr ⟨_, _, fsByte_of_chk hst hdec, hdone⟩)

/-- Past the subtype byte and before the checksum byte the bytes taken are a frame cut short. -/
theorem readFrame_collected_body {s : State} (hst : s.rxState ≠ .sub) (hmid : MidFrame s)
    (hcnt : s.rxCnt.toNat ≤ s.rxLen.toNat) : readFrame (collected s) = .error .truncated := by
  obtain ⟨hcat, hsc, hlen, -⟩ := hmid
  have hp : (s.rxBuf.toList.take s.rxCnt.toNat).length ≤ 2 ^ (sizeField s.rxHdr).toNat :=
    (List.length_take_le _ _).trans (hlen ▸ hcnt)
  by_cases hinfo : categoryOf s.rxHdr = .info
  · obtain ⟨hcut, -⟩ := readFrame_info (s.rxSub :: s.rxBuf.toList.take s.rxCnt.toNat) hinfo hsc
    rw [collected_info hst hinfo, hcut (Nat.succ_le_succ hp)]
  · obtain ⟨hcut, -⟩ := readFrame_plain (s.rxBuf.toList.take s.rxCnt.toNat) hcat hinfo hsc
    rw [collected_plain hinfo, hcut hp]

/-- Inside a frame the bytes taken are a frame cut short (44_frame_decoder.md R223, R230). -/
theorem readFrame_collected {s : State} (hst : s.rxState ≠ .idle) (hinv : DecoderInv s) :
    readFrame (collected s) = .error .truncated := by
  cases hrx : s.rxState with
  | idle => exact absurd hrx hst
  | sub =>
    obtain ⟨⟨-, hsc, -, -⟩, hinfo, hcnt⟩ := (decoderInv_iff_of_sub hrx).1 hinv
    have hcol : collected s = [s.rxHdr] := by simp [collected, hrx, hcnt]
    obtain ⟨hcut, -⟩ := readFrame_info [] hinfo hsc
    rw [hcol, hcut (Nat.zero_le _)]
  | pay =>
    obtain ⟨hmid, hcnt⟩ := (decoderInv_iff_of_pay hrx).1 hinv
    exact readFrame_collected_body (by simp [hrx]) hmid hcnt.le
  | chk =>
    obtain ⟨hmid, hcnt⟩ := (decoderInv_iff_of_chk hrx).1 hinv
    exact readFrame_collected_body (by simp [hrx]) hmid (by rw [hcnt])

/-! ### The pure function, one turn at a time -/

theorem decodeStreamFrom_nil (fuel pos : Nat) : decodeStreamFrom fuel pos [] = ⟨[], .endOk⟩ := by
  cases fuel <;> rfl

/-- One turn of `decode_stream`, by what it reads (44_frame_decoder.md R222, R223). -/
theorem decodeStreamFrom_succ (fuel pos : Nat) (bs : List Byte) :
    (readFrame bs = .error .truncated → decodeStreamFrom (fuel + 1) pos bs = ⟨[], .truncated⟩) ∧
    (∀ hdr, readFrame bs = .error (.reservedSizeClass hdr) →
      decodeStreamFrom (fuel + 1) pos bs = ⟨[], .reservedSizeClass hdr pos⟩) ∧
    (∀ raw rest, readFrame bs = .ok (raw, rest) →
      decodeStreamFrom (fuel + 1) pos bs =
        ⟨frameRecord raw (checksum (coveredBytes raw)) ::
          (decodeStreamFrom fuel (pos + raw.bytes.length) rest).frames,
          (decodeStreamFrom fuel (pos + raw.bytes.length) rest).status⟩) := by
  rw [decodeStreamFrom]
  exact ⟨fun h => by rw [h], fun hdr h => by rw [h], fun raw rest h => by rw [h]⟩

/-! ### The byte-serial machine, one byte at a time -/

theorem fsRun_nil (s : State) : fsRun [] s = some ⟨[], fsEnd s⟩ := rfl

/-- One byte of the byte-serial machine, by what `FsByte` answers (44_frame_decoder.md R231). -/
theorem fsRun_cons (b : Byte) (bs : List Byte) (s t : State) :
    (fsByte b s = (.pending, t) → fsRun (b :: bs) s = fsRun bs t) ∧
    (∀ hdr, fsByte b s = (.error hdr, t) →
      fsRun (b :: bs) s = some ⟨[], .reservedSizeClass hdr (t.rxPos - 1)⟩) ∧
    (∀ i r, fsByte b s = (.complete i, t) → fsRun bs t = some r →
      fsRun (b :: bs) s = some ⟨frameRecord (rawOf i) s.rxAcc :: r.frames, r.status⟩) := by
  rw [fsRun]
  exact ⟨fun h => by rw [h], fun hdr h => by rw [h], fun i r h hr => by simp [h, hr]⟩

/-- The simulation: from a decoder position, feeding the bytes that remain gives what the pure function
gives from the start of the current frame, on the bytes already taken and those that remain. -/
theorem fsRun_eq_decodeStreamFrom (bs : List Byte) (s : State) (fuel start : Nat) (hinv : DecoderInv s)
    (hpos : s.rxPos = start + (taken s).length) (hfuel : (taken s ++ bs).length ≤ fuel) :
    fsRun bs s = some (decodeStreamFrom fuel start (taken s ++ bs)) := by
  induction bs generalizing s fuel start with
  | nil =>
    rw [List.append_nil] at hfuel ⊢
    by_cases hst : s.rxState = .idle
    · rw [taken_of_idle hst, decodeStreamFrom_nil, fsRun_nil, fsEnd, if_pos hst]
    · rw [taken_of_ne_idle hst] at hfuel ⊢
      obtain ⟨fuel, rfl⟩ : ∃ n, fuel = n + 1 :=
        Nat.exists_eq_add_one.2 (Nat.lt_of_lt_of_le (Nat.zero_lt_succ _) hfuel)
      obtain ⟨htruncated, -, -⟩ := decodeStreamFrom_succ fuel start (collected s)
      rw [htruncated (readFrame_collected hst hinv), fsRun_nil, fsEnd, if_neg hst]
  | cons b bs ih =>
    have hsplit : taken s ++ b :: bs = (taken s ++ [b]) ++ bs := List.append_cons ..
    have hnext : s.rxPos + 1 = start + (taken s ++ [b]).length := by
      rw [hpos, List.length_append, List.length_singleton, Nat.add_assoc]
    obtain ⟨fuel, rfl⟩ : ∃ n, fuel = n + 1 :=
      Nat.exists_eq_add_one.2 (Nat.lt_of_lt_of_le (by simp) hfuel)
    obtain ⟨-, hreserved, hframe⟩ := decodeStreamFrom_succ fuel start (taken s ++ b :: bs)
    rcases fsByte_of_decoderInv b hinv with ⟨t, hb, ht⟩ | ⟨hb, hst, hcat, hsc⟩ | ⟨raw, t, hb, ht⟩
    · obtain ⟨hpending, -, -⟩ := fsRun_cons b bs s t
      rw [← ht.rxPos_eq, ← ht.taken_eq] at hnext
      rw [hsplit, ← ht.taken_eq] at hfuel ⊢
      rw [hpending hb, ih t _ start ht.inv hnext hfuel]
    · obtain ⟨-, herror, -⟩ := fsRun_cons b bs s (takeByte s)
      rw [taken_of_idle hst] at hpos hreserved ⊢
      have hstart : (takeByte s).rxPos - 1 = start := hpos
      rw [herror b hb, hstart, hreserved b (readFrame_reserved bs hcat hsc)]
    · obtain ⟨-, -, hcomplete⟩ := fsRun_cons b bs s t
      have hread : readFrame (taken s ++ b :: bs) = .ok (raw, bs) := by
        rw [hsplit, ← ht.bytes_eq, readFrame_bytes ht.wellFormed]
      have hrest := ih t fuel (start + raw.bytes.length) (decoderInv_of_idle ht.idle)
      rw [taken_of_idle ht.idle, List.nil_append] at hrest
      have hfuel' : bs.length ≤ fuel := by
        rw [List.length_append, List.length_cons] at hfuel
        omega
      have hstart : t.rxPos = start + raw.bytes.length := by
        rw [ht.rxPos_eq, hnext, ht.bytes_eq]
      rw [hcomplete _ _ hb (hrest hstart hfuel'), hframe raw bs hread, rawOf_instrOf ht.wellFormed,
        ht.record_eq]

/-- Settles O36: from `FsReset` no byte is taken yet, so the simulation starts at the whole sequence
(44_frame_decoder.md R231). -/
theorem byteSerialAgreesWithPure : Obligations.ByteSerialAgreesWithPure := by
  intro bs s
  have hidle : (fsReset s).rxState = .idle := rfl
  have hrun := fsRun_eq_decodeStreamFrom bs (fsReset s) bs.length 0 (decoderInv_of_idle hidle)
  rw [taken_of_idle hidle, List.nil_append] at hrun
  exact hrun rfl le_rfl

/-! ### A received byte in `Active` -/

theorem step_of_nextEvent {s : State} {ev : Event} {now : Nat} {rest : List Input}
    (hev : NextEvent s ev now rest) : step s = stepEvent ev now { s with inputs := rest } := by
  have hinputs : s.inputs = .event ev now :: rest := hev
  simp only [step, stepInput, hinputs]

theorem settleTest_of_active (now : Nat) {s : State} (h : s.phase = .active) : settleTest now s = s := by
  simp [settleTest, h]

/-- In `Active` the settle test does nothing and the scheduler follows the handler (46_session.md R282). -/
theorem stepEvent_of_active {ev : Event} (now : Nat) {s : State} (hev : ev ≠ .reset)
    (h : s.phase = .active) : stepEvent ev now s = schedIfActive now (handleActive ev s) := by
  simp only [stepEvent, if_neg hev, settleTest_of_active now h, handleEvent, h]

/-- The step of a received byte that leaves its frame incomplete: the decoder's writes, then the scheduler
(46_session.md R282, R295). -/
theorem step_rx_of_pending {s t : State} {b : Byte} {now : Nat} {rest : List Input}
    (hev : NextEvent s (.rx b) now rest) (hactive : s.phase = .active)
    (hb : fsByte b { s with inputs := rest } = (.pending, t)) (ht : t.phase = .active) :
    step s = .next (sched now t) := by
  have hrx : Event.rx b ≠ .reset := nofun
  have hphase : { s with inputs := rest }.phase = .active := hactive
  rw [step_of_nextEvent hev, stepEvent_of_active now hrx hphase, handleActive, rxActive, hb,
    schedIfActive, if_pos ht]

theorem categoryOf_ne_sys_iff : ∀ b : Byte, categoryOf b ≠ .sys ↔ 64 ≤ b.toNat := by decide

theorem categoryOf_eq_info_iff : ∀ b : Byte, categoryOf b = .info ↔ b.toNat / 64 = 2 := by decide

theorem toNat_sizeField : ∀ b : Byte, (sizeField b).toNat = b.toNat / 8 % 8 := by decide

theorem sizeShift_eq_ofNat (n : Nat) : 1#6 <<< n = BitVec.ofNat 6 (2 ^ n) := by
  apply BitVec.eq_of_toNat_eq
  rw [BitVec.toNat_shiftLeft, Nat.shiftLeft_eq, BitVec.toNat_ofNat, BitVec.toNat_ofNat, Nat.one_mul]

/-- The registers after a framed header, in the terms of the header byte's value (44_frame_decoder.md
R226). -/
theorem latchHeader_eq (b : Byte) (s : State) : latchHeader b s = { s with
    rxHdr := b
    rxAcc := 0xFF#8 ^^^ b
    rxLen := BitVec.ofNat 6 (2 ^ (b.toNat / 8 % 8))
    rxCnt := 0
    rxState := if b.toNat / 64 = 2 then .sub else .pay } := by
  simp only [latchHeader, sizeShift_eq_ofNat, toNat_sizeField, categoryOf_eq_info_iff]

/-- Settles O50: each of the three bytes leaves its frame incomplete, so the step is the decoder's writes
and then the scheduler (44_frame_decoder.md R226 to R228). -/
theorem activeFrameBytes : Obligations.ActiveFrameBytes := by
  intro s b now rest hev hactive
  refine ⟨fun hst hcat hsc => ?header, fun hst => ?subtype, fun hst hcnt => ?payload⟩
  case header =>
    have hb : fsByte b { s with inputs := rest } = _ :=
      fsByte_of_framed hst ((categoryOf_ne_sys_iff b).2 hcat) ((toNat_sizeField b).trans_lt hsc)
    rw [latchHeader_eq] at hb
    exact step_rx_of_pending hev hactive hb hactive
  case subtype => exact step_rx_of_pending hev hactive (fsByte_of_sub b hst) hactive
  case payload => exact step_rx_of_pending hev hactive (fsByte_of_pay b hst hcnt) hactive

end Sys2Proof.Machine

/-! SUPPORT. The frame builder against the decoder of a sequence: what a build that answers has sent, and
what `decode_stream` reads from those bytes alone (45_tx_encoder.md R257 to R259). -/

namespace Sys2Proof.Machine

open Sys2Proof.Laws.EncodedSize (categoryOf_headerByte sizeField_headerByte)
open Sys2Proof.Safety (modeNumber SameTarget PaddedTo)

/-! ### A frame alone in the input -/

/-- The bytes of one frame yield that frame's record and end at its boundary (44_frame_decoder.md R222,
R223). -/
theorem decodeStream_bytes {raw : RawFrame} (hw : raw.WellFormed) :
    decodeStream raw.bytes = ⟨[frameRecord raw (checksum (coveredBytes raw))], .endOk⟩ := by
  have hread := readFrame_bytes hw []
  rw [List.append_nil] at hread
  obtain ⟨fuel, hfuel⟩ : ∃ fuel, raw.bytes.length = fuel + 1 := by
    cases raw <;> exact ⟨_, rfl⟩
  obtain ⟨-, -, hturn⟩ := decodeStreamFrom_succ fuel 0 raw.bytes
  rw [decodeStream, hfuel, hturn raw [] hread, decodeStreamFrom_nil]

/-! ### What the encoders answer -/

/-- A header that `encode_header` answers names the least size class of the length (30_encoding.md R98,
R100, R101). -/
theorem encodeHeader_ok {cat : Category} {m len : Nat} {h : Byte} (hok : encodeHeader cat m len = .ok h) :
    ∃ sc, IsLeastSizeClass len sc ∧ h = headerByte cat sc (BitVec.ofNat 3 m) := by
  by_cases hfield : cat = .sys ∨ 7 < m
  · rw [encodeHeader_of_field_out_of_range len hfield] at hok
    cases hok
  obtain ⟨hcat, hm⟩ := not_or.1 hfield
  have hm : m ≤ 7 := Nat.not_lt.1 hm
  by_cases hsize : len = 0 ∨ 32 < len
  · rw [encodeHeader_of_size_out_of_range hcat hm hsize] at hok
    cases hok
  obtain ⟨hpos, hle⟩ := not_or.1 hsize
  have hle : len ≤ 32 := Nat.not_lt.1 hle
  obtain ⟨sc, hsc⟩ := exists_leastSizeClass hle
  rw [encodeHeader_of_leastSizeClass hcat hm (Nat.pos_of_ne_zero hpos) hle hsc] at hok
  cases hok
  exact ⟨sc, isLeastSizeClass_of_leastSizeClass hsc, rfl⟩

/-- The frame `build_frame` sends for a target under the header `h`, before it is written out as bytes
(45_tx_encoder.md R258). -/
def builtRaw (t : FrameTarget) (h : Byte) (payload : List Byte) : RawFrame :=
  let chk := checksum (h :: (subBytes t ++ padTo h payload))
  match t with
  | .info mode id => .withSub h (subtypeByte id (decide (8 ≤ mode))) (padTo h payload) chk
  | .cmd _ => .plain h (padTo h payload) chk
  | .data _ => .plain h (padTo h payload) chk

/-- A build that answers has tested the target and sent `builtRaw` under the header of the least size
class. -/
theorem buildFrame_ok {t : FrameTarget} {p bs : List Byte} (hok : buildFrame t p = .ok bs) :
    targetInRange t = true ∧ ∃ sc, IsLeastSizeClass p.length sc ∧
      bs = (builtRaw t (headerByte t.cat sc (BitVec.ofNat 3 (wireField t))) p).bytes := by
  obtain ⟨hrange, hok⟩ := require_ok _ _ _ _ hok
  refine ⟨hrange, ?_⟩
  cases henc : encodeHeader t.cat (wireField t) p.length with
  | error c =>
    rw [henc] at hok
    cases hok
  | ok h =>
    rw [henc] at hok
    obtain ⟨sc, hleast, rfl⟩ := encodeHeader_ok henc
    refine ⟨sc, hleast, ?_⟩
    cases hok
    cases t <;> rfl

/-! ### The padding -/

theorem length_padTo {h : Byte} {p : List Byte} (hle : p.length ≤ 2 ^ (sizeField h).toNat) :
    (padTo h p).length = 2 ^ (sizeField h).toNat := by
  rw [padTo, zeros, List.length_append, List.length_replicate, Nat.add_sub_cancel' hle]

/-- The zeros reach the least size class that holds the payload (30_encoding.md R102). -/
theorem paddedTo_padTo {h : Byte} {p : List Byte} (hleast : IsLeastSizeClass p.length (sizeField h)) :
    PaddedTo p (padTo h p) := by
  obtain ⟨hsc, hfits, hsmaller⟩ := hleast
  exact ⟨_, _, rfl, length_padTo hfits, Nat.le_of_lt_succ hsc, hsmaller⟩

/-! ### The record of a built frame -/

theorem wellFormed_builtRaw {t : FrameTarget} {h : Byte} {p : List Byte} (hcat : categoryOf h = t.cat)
    (hleast : IsLeastSizeClass p.length (sizeField h)) : (builtRaw t h p).WellFormed := by
  obtain ⟨hsc, hfits, -⟩ := hleast
  have hlen := length_padTo hfits
  cases t with
  | info mode id => exact ⟨hcat, hsc, hlen⟩
  | cmd | data => exact ⟨by simp [hcat, FrameTarget.cat], by simp [hcat, FrameTarget.cat], hsc, hlen⟩

theorem payload_builtRaw (t : FrameTarget) (h : Byte) (p : List Byte) (acc : Byte) :
    (frameRecord (builtRaw t h p) acc).payload = padTo h p := by
  cases t <;> rfl

/-- The checksum byte sent is the one the decoder computes over the bytes before it. -/
theorem chkFault_builtRaw (t : FrameTarget) (h : Byte) (p : List Byte) :
    (frameRecord (builtRaw t h p) (checksum (coveredBytes (builtRaw t h p)))).chkFault = false := by
  cases t <;> exact bne_self_eq_false _

/-- None of the eight subtype ids has bit 5 set, so the flag put there comes back (30_encoding.md R103,
R107). -/
theorem plus8Of_subtypeByte :
    ∀ (id : Byte) (plus8 : Bool), knownSubtypeId id = true → plus8Of (subtypeByte id plus8) = plus8 := by
  decide

theorem subtypeIdOf_subtypeByte :
    ∀ (id : Byte) (plus8 : Bool), knownSubtypeId id = true → subtypeIdOf (subtypeByte id plus8) = id := by
  decide

/-- The wire field and the flag of a logical mode make up that mode again (30_encoding.md R104, R105). -/
theorem logicalMode_wireField {mode : Nat} (id : Byte) (hmode : mode ≤ 15) :
    logicalMode (BitVec.ofNat 3 (wireField (.info mode id))) (decide (8 ≤ mode)) = BitVec.ofNat 4 mode := by
  rw [logicalMode_eq]
  congr 1
  by_cases hplus : 8 ≤ mode
  · have hwire : wireField (.info mode id) = mode - 8 := if_pos hplus
    rw [decide_eq_true hplus, hwire, modeNumber, if_pos rfl, BitVec.toNat_ofNat]
    omega
  · have hwire : wireField (.info mode id) = mode := if_neg hplus
    rw [decide_eq_false hplus, hwire, modeNumber, if_neg Bool.false_ne_true, BitVec.toNat_ofNat]
    omega

/-- The record of a built frame names the target it was built for. -/
theorem sameTarget_builtRaw {t : FrameTarget} {sc : Field3} (p : List Byte) (acc : Byte)
    (hrange : targetInRange t = true) :
    SameTarget (frameRecord (builtRaw t (headerByte t.cat sc (BitVec.ofNat 3 (wireField t))) p) acc) t := by
  cases t with
  | cmd n | data n =>
    have hn : n ≤ 7 := of_decide_eq_true hrange
    refine ⟨categoryOf_headerByte .., ?_⟩
    simp only [frameRecord, builtRaw, codeField_headerByte, wireField, BitVec.toNat_ofNat]
    omega
  | info mode id =>
    obtain ⟨hmode, hid⟩ := Bool.and_eq_true_iff.1 hrange
    refine ⟨categoryOf_headerByte .., ?_, _, rfl, subtypeIdOf_subtypeByte id _ hid⟩
    simp only [frameRecord, builtRaw, codeField_headerByte, plus8Of_subtypeByte id _ hid,
      logicalMode_wireField id (of_decide_eq_true hmode)]

/-! ### The obligation -/

/-- Settles O10: a build that answers has sent a well-formed frame with its own checksum, and
`decode_stream` of that frame's bytes is its record. -/
theorem builtFrameDecodesAlone : Obligations.BuiltFrameDecodesAlone := by
  intro t p bs hok
  obtain ⟨hrange, sc, hleast, rfl⟩ := buildFrame_ok hok
  rw [← sizeField_headerByte t.cat sc (BitVec.ofNat 3 (wireField t))] at hleast
  refine ⟨_, decodeStream_bytes (wellFormed_builtRaw (categoryOf_headerByte ..) hleast),
    chkFault_builtRaw .., sameTarget_builtRaw p _ hrange, ?_⟩
  rw [payload_builtRaw]
  exact paddedTo_padTo hleast

end Sys2Proof.Machine

/-! SUPPORT. The session engine event by event: the step as the handler of the phase it is in, what each
handler does, and the two tests of the scheduler (46_session.md R282 to R308). -/

namespace Sys2Proof.Machine

open Sys2Proof.Safety (NextEvent EntersDisconnected)

/-! ### The step in each phase -/

theorem schedIfActive_of_active (now : Nat) {t : State} (h : t.phase = .active) :
    schedIfActive now (.next t) = .next (sched now t) := by
  rw [schedIfActive, if_pos h]

theorem schedIfActive_of_not_active (now : Nat) {t : State} (h : t.phase ≠ .active) :
    schedIfActive now (.next t) = .next t := by
  rw [schedIfActive, if_neg h]

/-- Before the settle deadline, and outside the settle delay, the settle test does nothing (46_session.md
R292). -/
theorem settleTest_of_not_due {now : Nat} {s : State} (h : s.hsStep = .capture ∨ now < s.settleDeadline) :
    settleTest now s = s := by
  rcases settleTest_cases now s with ⟨-, hsettle, hdue, -⟩ | ⟨-, heq⟩
  · rcases h with hcapture | hearly
    · rw [hcapture] at hsettle
      cases hsettle
    · exact absurd hdue (Nat.not_le.2 hearly)
  · exact heq

theorem settleTest_of_due {now : Nat} {s : State} (hphase : s.phase = .handshaking)
    (hstep : s.hsStep = .settle) (hdue : s.settleDeadline ≤ now) : settleTest now s = activate now s :=
  if_pos ⟨hphase, hstep, hdue⟩

theorem settleTest_of_disconnected (now : Nat) {s : State} (h : s.phase = .disconnected) :
    settleTest now s = s := by
  simp [settleTest, h]

/-- In `Disconnected` the settle test does nothing (46_session.md R282). -/
theorem stepEvent_of_disconnected {ev : Event} (now : Nat) {s : State} (hev : ev ≠ .reset)
    (h : s.phase = .disconnected) : stepEvent ev now s = schedIfActive now (handleDisconnected ev s) := by
  simp only [stepEvent, if_neg hev, settleTest_of_disconnected now h, handleEvent, h]

theorem stepEvent_of_handshaking {ev : Event} {now : Nat} {s : State} (hev : ev ≠ .reset)
    (h : s.phase = .handshaking) (hdue : s.hsStep = .capture ∨ now < s.settleDeadline) :
    stepEvent ev now s = schedIfActive now (handleHandshaking ev now s) := by
  simp only [stepEvent, if_neg hev, settleTest_of_not_due hdue, handleEvent, h]

section
variable {s t : State} {ev : Event} {now : Nat} {rest : List Input}

/-- The step in `Disconnected` is its handler, when that stays out of `Active` (46_session.md R282). -/
theorem step_of_disconnected (hev : NextEvent s ev now rest) (hreset : ev ≠ .reset)
    (hphase : s.phase = .disconnected) (hhandle : handleDisconnected ev { s with inputs := rest } = .next t)
    (ht : t.phase ≠ .active) : step s = .next t := by
  have hevent : stepEvent ev now { s with inputs := rest } = _ := stepEvent_of_disconnected now hreset hphase
  rw [step_of_nextEvent hev, hevent, hhandle, schedIfActive_of_not_active now ht]

/-- The step in `Handshaking` while no activation is due is its handler, when that stays out of `Active`
(46_session.md R282). -/
theorem step_of_handshaking (hev : NextEvent s ev now rest) (hreset : ev ≠ .reset)
    (hphase : s.phase = .handshaking) (hdue : s.hsStep = .capture ∨ now < s.settleDeadline)
    (hhandle : handleHandshaking ev now { s with inputs := rest } = .next t)
    (ht : t.phase ≠ .active) : step s = .next t := by
  have hevent : stepEvent ev now { s with inputs := rest } = _ :=
    stepEvent_of_handshaking hreset hphase hdue
  rw [step_of_nextEvent hev, hevent, hhandle, schedIfActive_of_not_active now ht]

/-- The step in `Active` is its handler and then the scheduler, when the handler stays in `Active`
(46_session.md R282). -/
theorem step_of_active (hev : NextEvent s ev now rest) (hreset : ev ≠ .reset)
    (hphase : s.phase = .active) (hhandle : handleActive ev { s with inputs := rest } = .next t)
    (ht : t.phase = .active) : step s = .next (sched now t) := by
  have hevent : stepEvent ev now { s with inputs := rest } = _ := stepEvent_of_active now hreset hphase
  rw [step_of_nextEvent hev, hevent, hhandle, schedIfActive_of_active now ht]

end

/-! ### Disconnected -/

/-- Settles O45: each of the four events is a case of the handler of `Disconnected`, which stays there. -/
theorem disconnectedEvents : Obligations.DisconnectedEvents := by
  refine ⟨fun s ev now rest hev hphase hquiet => ?ignored, fun s q now rest hev hphase => ?rejected⟩
  case ignored =>
    have hstays : s.phase ≠ .active := by simp [hphase]
    rcases hquiet with ⟨b, rfl⟩ | rfl | rfl <;> exact step_of_disconnected hev nofun hphase rfl hstays
  case rejected => exact step_of_disconnected hev nofun hphase rfl (by simp [hphase])

/-! ### A failed attempt and the fatal entry -/

/-- The fatal entry writes the registers of 10_state.md R56 and keeps the others (60_exceptions.md
R350). -/
theorem fatal_entersDisconnected (c : Condition) (s : State) (rest : List Input) :
    EntersDisconnected s (fatal c { s with inputs := rest }) rest (fatalActions c) := by
  simp [EntersDisconnected]

theorem hsFail_of_two_le {s : State} (h : 2 ≤ s.hsLeft) : hsFail s = { s with
    outputs := s.outputs ++ [.report (.handshakeMismatch (s.hsLeft - 1))]
    hsLeft := s.hsLeft - 1
    hsBuf := [] } := by
  rcases hsFail_cases s with ⟨-, heq⟩ | ⟨hle, -⟩
  · exact heq
  · omega

/-- The fatal entry itself clears the two registers that a failed attempt writes. -/
theorem hsFail_of_le_one {s : State} (h : s.hsLeft ≤ 1) : hsFail s = fatal .deviceNotFound s := by
  rcases hsFail_cases s with ⟨hle, -⟩ | ⟨-, heq⟩
  · omega
  · exact heq

section
variable {s : State} {ev : Event} {now : Nat} {rest : List Input}

/-- An event that fails an attempt while others remain (46_session.md R288). -/
theorem step_of_hsFail_retry (hev : NextEvent s ev now rest) (hreset : ev ≠ .reset)
    (hphase : s.phase = .handshaking) (hcapture : s.hsStep = .capture)
    (hhandle : handleHandshaking ev now { s with inputs := rest } = .next (hsFail { s with inputs := rest }))
    (hleft : 2 ≤ s.hsLeft) : step s = .next { s with
      inputs := rest
      outputs := s.outputs ++ [.report (.handshakeMismatch (s.hsLeft - 1))]
      hsLeft := s.hsLeft - 1
      hsBuf := [] } := by
  have hfail : hsFail { s with inputs := rest } = _ := hsFail_of_two_le hleft
  exact step_of_handshaking hev hreset hphase (.inl hcapture) (hhandle.trans (congrArg _ hfail))
    (by simp [hphase])

/-- An event whose handler raises a fatal condition in `Handshaking` (60_exceptions.md R350). -/
theorem step_of_handshaking_fatal {c : Condition} (hev : NextEvent s ev now rest) (hreset : ev ≠ .reset)
    (hphase : s.phase = .handshaking) (hdue : s.hsStep = .capture ∨ now < s.settleDeadline)
    (hhandle : handleHandshaking ev now { s with inputs := rest } =
      .next (fatal c { s with inputs := rest })) :
    ∃ s', step s = .next s' ∧ s'.rxPos = s.rxPos ∧ EntersDisconnected s s' rest (fatalActions c) :=
  ⟨_, step_of_handshaking hev hreset hphase hdue hhandle nofun, rfl, fatal_entersDisconnected c s rest⟩

/-- An event that fails the last attempt (46_session.md R288). -/
theorem step_of_hsFail_last (hev : NextEvent s ev now rest) (hreset : ev ≠ .reset)
    (hphase : s.phase = .handshaking) (hcapture : s.hsStep = .capture)
    (hhandle : handleHandshaking ev now { s with inputs := rest } = .next (hsFail { s with inputs := rest }))
    (hleft : s.hsLeft ≤ 1) : ∃ s', step s = .next s' ∧ s'.rxPos = s.rxPos ∧
      EntersDisconnected s s' rest [.report .deviceNotFound, .closeTransport] := by
  have hfail : hsFail { s with inputs := rest } = _ := hsFail_of_le_one hleft
  exact step_of_handshaking_fatal hev hreset hphase (.inl hcapture) (hhandle.trans (congrArg _ hfail))

end

/-! ### A captured byte -/

section
variable {b : Byte} {s : State} (now : Nat)

theorem capture_of_length_ne (h : (s.hsBuf ++ [b]).length ≠ s.cfg.refBlob.length) :
    capture b now s = { s with hsBuf := s.hsBuf ++ [b] } := by
  rcases capture_cases b now s with ⟨-, heq⟩ | ⟨hmatch, -⟩ | ⟨hlen, -⟩
  · exact heq
  · exact absurd (congrArg List.length hmatch) h
  · exact absurd hlen h

theorem capture_of_match (h : s.hsBuf ++ [b] = s.cfg.refBlob) : capture b now s = { s with
    outputs := s.outputs ++ [.tx [s.cfg.sysAck]]
    hsBuf := []
    hsStep := .settle
    settleDeadline := now + s.cfg.settleDelay } := by
  rcases capture_cases b now s with ⟨hlen, -⟩ | ⟨-, heq⟩ | ⟨-, hne, -⟩
  · exact absurd (congrArg List.length h) hlen
  · exact heq
  · exact absurd h hne

/-- A mismatch is a failed attempt, which drops the bytes captured with it. -/
theorem capture_of_mismatch (hlen : (s.hsBuf ++ [b]).length = s.cfg.refBlob.length)
    (hne : s.hsBuf ++ [b] ≠ s.cfg.refBlob) : capture b now s = hsFail s := by
  rcases capture_cases b now s with ⟨hlen', -⟩ | ⟨hmatch, -⟩ | ⟨-, -, heq⟩
  · exact absurd hlen hlen'
  · exact absurd hmatch hne
  · exact heq

theorem handleHandshaking_rx_of_capture (h : s.hsStep = .capture) :
    handleHandshaking (.rx b) now s = .next (capture b now s) := by
  rw [handleHandshaking, if_pos h]

theorem handleHandshaking_rx_of_settle (h : s.hsStep = .settle) :
    handleHandshaking (.rx b) now s = .next s := by
  simp [handleHandshaking, h]

theorem handleHandshaking_idle_of_capture (h : s.hsStep = .capture) :
    handleHandshaking .idle now s = .next (hsFail s) := by
  rw [handleHandshaking, if_pos h]

theorem handleHandshaking_idle_of_settle (h : s.hsStep = .settle) :
    handleHandshaking .idle now s = .next s := by
  simp [handleHandshaking, h]

end

/-- Settles O46: the byte is handed to `capture`, and a mismatch is the failed attempt of R288. -/
theorem handshakeCapture : Obligations.HandshakeCapture := by
  intro s b now rest hev hphase hcapture buf
  have hstays : s.phase ≠ .active := by simp [hphase]
  have hstep : { s with inputs := rest }.hsStep = .capture := hcapture
  have hhandle {t : State} (hbyte : capture b now { s with inputs := rest } = t) :
      handleHandshaking (.rx b) now { s with inputs := rest } = .next t :=
    (handleHandshaking_rx_of_capture now hstep).trans (congrArg _ hbyte)
  refine ⟨fun hlen => ?kept, fun hmatch => ?matched, fun hlen hne hleft => ?retry,
    fun hlen hne hleft => ?last⟩
  case kept =>
    exact step_of_handshaking hev nofun hphase (.inl hcapture)
      (hhandle (capture_of_length_ne now hlen)) hstays
  case matched =>
    exact step_of_handshaking hev nofun hphase (.inl hcapture)
      (hhandle (capture_of_match now hmatch)) hstays
  case retry =>
    exact step_of_hsFail_retry hev nofun hphase hcapture
      (hhandle (capture_of_mismatch now hlen hne)) hleft
  case last =>
    exact step_of_hsFail_last hev nofun hphase hcapture
      (hhandle (capture_of_mismatch now hlen hne)) hleft

/-! ### The other events of the handshake -/

/-- Settles O47: while no activation is due each event is its case of the handler of `Handshaking`. -/
theorem handshakeOtherEvents : Obligations.HandshakeOtherEvents := by
  intro s now rest hphase hdue
  have hstays : s.phase ≠ .active := by simp [hphase]
  refine ⟨fun hev hcapture hleft => ?idleRetry, fun hev hcapture hleft => ?idleLast,
    fun hev hsettle => ?idleSettle, fun b hev hsettle => ?rxSettle, fun hev => ?start,
    fun q hev => ?submit, fun hev => ?closed⟩
  case idleRetry =>
    exact step_of_hsFail_retry hev nofun hphase hcapture
      (handleHandshaking_idle_of_capture now hcapture) hleft
  case idleLast =>
    exact step_of_hsFail_last hev nofun hphase hcapture
      (handleHandshaking_idle_of_capture now hcapture) hleft
  case idleSettle =>
    exact step_of_handshaking hev nofun hphase hdue (handleHandshaking_idle_of_settle now hsettle) hstays
  case rxSettle =>
    exact step_of_handshaking hev nofun hphase hdue (handleHandshaking_rx_of_settle now hsettle) hstays
  case start => exact step_of_handshaking hev nofun hphase hdue rfl hstays
  case submit => exact step_of_handshaking hev nofun hphase hdue rfl hstays
  case closed => exact step_of_handshaking_fatal hev nofun hphase hdue rfl

/-! ### Activation -/

/-- Settles O48: when activation is due the settle test gives the activated state, which the settle test
of its own step leaves as it is (46_session.md R282, R292, R293). -/
theorem activationBeforeTheEvent : Obligations.ActivationBeforeTheEvent := by
  intro s ev now rest hev hreset hphase hstep hdue
  have hsettle : settleTest now { s with inputs := rest } = activate now { s with inputs := rest } :=
    settleTest_of_due hphase hstep hdue
  have hactivated : (activate now { s with inputs := rest }).phase = .active := rfl
  have hev' : NextEvent (activate now s) ev now rest := hev
  calc step s
      = stepEvent ev now { s with inputs := rest } := step_of_nextEvent hev
    _ = stepEvent ev now (activate now { s with inputs := rest }) := by
      rw [stepEvent, stepEvent, if_neg hreset, if_neg hreset, hsettle,
        settleTest_of_active now hactivated]
    _ = step (activate now s) := (step_of_nextEvent hev').symm

/-! ### Host events in `Active` -/

section
variable {q : Query} {s : State}

theorem submitActive_of_waiting (h : s.pendingQuery ≠ none) :
    submitActive q s = rejectEvent .queryBusy s := by
  rcases submitActive_cases q s with ⟨-, heq⟩ | ⟨hnone, -⟩ | ⟨hnone, -⟩
  · exact heq
  · exact absurd hnone h
  · exact absurd hnone h

theorem submitActive_of_error {c : Condition} (hnone : s.pendingQuery = none)
    (henc : encodeQuery s.cfg q = .error c) : submitActive q s = rejectEvent c s := by
  simp [submitActive, hnone, henc]

theorem submitActive_of_ok {eq : EncodedQuery} (hnone : s.pendingQuery = none)
    (henc : encodeQuery s.cfg q = .ok eq) : submitActive q s = { s with pendingQuery := some eq } := by
  simp [submitActive, hnone, henc]

end

/-- Settles O51: the handler of `Active` rejects or keeps the query and stays in `Active`, so the scheduler
follows (46_session.md R305, R306). -/
theorem activeHostEvents : Obligations.ActiveHostEvents := by
  intro s now rest hphase
  have hsubmit {q : Query} {t : State} (hev : NextEvent s (.submit q) now rest)
      (ht : submitActive q { s with inputs := rest } = t) (hactive : t.phase = .active) :
      step s = .next (sched now t) :=
    step_of_active hev nofun hphase (congrArg _ ht) hactive
  refine ⟨fun hev => ?start, fun q hev hbusy => ?busy, fun q c hev hnone henc => ?refused,
    fun q eq hev hnone henc => ?kept⟩
  case start => exact step_of_active hev nofun hphase rfl hphase
  case busy => exact hsubmit hev (submitActive_of_waiting hbusy) hphase
  case refused => exact hsubmit hev (submitActive_of_error hnone henc) hphase
  case kept => exact hsubmit hev (submitActive_of_ok hnone henc) hphase

/-! ### The scheduler -/

section
variable {now : Nat} {s : State}

theorem keepAlive_of_due (h : s.cfg.keepaliveInterval ≤ now - s.lastKeepaliveTime) :
    keepAlive now s =
      { s with outputs := s.outputs ++ [.tx [s.cfg.sysKeepalive]], lastKeepaliveTime := now } := by
  rcases keepAlive_cases now s with ⟨-, heq⟩ | ⟨hlt, -⟩
  · exact heq
  · exact absurd h (Nat.not_le.2 hlt)

theorem keepAlive_of_not_due (h : now - s.lastKeepaliveTime < s.cfg.keepaliveInterval) :
    keepAlive now s = s := by
  rcases keepAlive_cases now s with ⟨hle, -⟩ | ⟨-, heq⟩
  · exact absurd h (Nat.not_lt.2 hle)
  · exact heq

theorem sendQuery_of_ready {q : EncodedQuery} (hq : s.pendingQuery = some q)
    (hmp : s.multipartPending = false) (h : s.cfg.minQuerySpacing ≤ now - s.lastQueryTime) :
    sendQuery now s = { s with outputs := s.outputs ++ [.tx q.bytes], lastQueryTime := now,
                               pendingQuery := none, multipartPending := q.multipart } := by
  rcases sendQuery_cases now s with ⟨q', hq', -, -, heq⟩ | ⟨hwait, -⟩
  · obtain rfl : q = q' := Option.some.inj (hq.symm.trans hq')
    exact heq
  · simp [hq, hmp, Nat.not_lt.2 h] at hwait

theorem sendQuery_of_waits (h : s.pendingQuery = none ∨ s.multipartPending = true ∨
    now - s.lastQueryTime < s.cfg.minQuerySpacing) : sendQuery now s = s := by
  rcases sendQuery_cases now s with ⟨q, hq, hmp, hle, -⟩ | ⟨-, heq⟩
  · simp [hq, hmp, Nat.not_lt.2 hle] at h
  · exact heq

end

/-- Settles O52: the scheduler by definition, and the two outcomes of each of its tests (46_session.md
R301 to R303). -/
theorem schedulerTests : Obligations.SchedulerTests := fun _ _ =>
  ⟨rfl, keepAlive_of_due, keepAlive_of_not_due, fun _ => sendQuery_of_ready, sendQuery_of_waits⟩

end Sys2Proof.Machine

/-! SUPPORT. The instruction codec in both directions: what the frame reader answers on every input, and
that the selection of the message kind is undone by, and undoes, the encoding tables (30_encoding.md R90
to R115). -/

namespace Sys2Proof

open Sys2Proof.Laws.EncodedSize (categoryOf_headerByte sizeField_headerByte length_of_bodyWf)
open Sys2Proof.Machine (codeField_headerByte)

/-! ### What the frame reader answers -/

/-- The bytes after a framed header that its frame still needs: payload, checksum and, for INFO, the
subtype byte (30_encoding.md R94). -/
def bytesNeeded (h : Byte) : Nat := 2 ^ (sizeField h).toNat + if categoryOf h = .info then 2 else 1

theorem exists_body {n : Nat} {t : List Byte} (h : n < t.length) :
    ∃ p c, p.length = n ∧ t = p ++ c :: t.drop (n + 1) :=
  ⟨t.take n, t[n], List.length_take_of_le h.le, by
    rw [← List.drop_eq_getElem_cons h, List.take_append_drop]⟩

theorem readFrame_of_short {h : Byte} {t : List Byte} (hsys : categoryOf h ≠ .sys)
    (hsc : (sizeField h).toNat < 6) (hcut : t.length < bytesNeeded h) :
    readFrame (h :: t) = .error .truncated := by
  by_cases hinfo : categoryOf h = .info
  · rw [bytesNeeded, if_pos hinfo] at hcut
    obtain ⟨hshort, -⟩ := readFrame_info t hinfo hsc
    exact hshort (Nat.le_of_lt_succ hcut)
  · rw [bytesNeeded, if_neg hinfo] at hcut
    obtain ⟨hshort, -⟩ := readFrame_plain t hsys hinfo hsc
    exact hshort (Nat.le_of_lt_succ hcut)

/-- With enough bytes the reader takes exactly the frame (44_frame_decoder.md R222). -/
theorem readFrame_of_long {h : Byte} {t : List Byte} (hsys : categoryOf h ≠ .sys)
    (hsc : (sizeField h).toNat < 6) (hlong : bytesNeeded h ≤ t.length) :
    ∃ raw, readFrame (h :: t) = .ok (raw, t.drop (bytesNeeded h)) ∧ raw.WellFormed ∧
      raw.bytes ++ t.drop (bytesNeeded h) = h :: t := by
  by_cases hinfo : categoryOf h = .info
  · rw [bytesNeeded, if_pos hinfo] at hlong ⊢
    cases t with
    | nil => cases hlong
    | cons sub t =>
      obtain ⟨p, c, hp, ht⟩ := exists_body (Nat.lt_of_succ_lt_succ hlong)
      obtain ⟨-, hwhole⟩ := readFrame_info (sub :: t) hinfo hsc
      exact ⟨.withSub h sub p c, hwhole sub p c _ hp (congrArg (sub :: ·) ht), ⟨hinfo, hsc, hp⟩, by simpa [RawFrame.bytes] using ht.symm⟩
  · rw [bytesNeeded, if_neg hinfo] at hlong ⊢
    obtain ⟨p, c, hp, ht⟩ := exists_body hlong
    obtain ⟨-, hwhole⟩ := readFrame_plain t hsys hinfo hsc
    exact ⟨.plain h p c, hwhole p c _ hp ht, ⟨hsys, hinfo, hsc, hp⟩, by simpa [RawFrame.bytes] using ht.symm⟩

/-- What the frame reader accepts is a well-formed frame, and its bytes are those taken. -/
theorem readFrame_ok {bs rest : List Byte} {raw : RawFrame} (hok : readFrame bs = .ok (raw, rest)) :
    raw.WellFormed ∧ raw.bytes ++ rest = bs := by
  cases bs with
  | nil => cases hok
  | cons h t =>
    by_cases hsys : categoryOf h = .sys
    · rw [readFrame_sys t hsys] at hok
      cases hok
      exact ⟨hsys, rfl⟩
    by_cases hsc : (sizeField h).toNat < 6
    · by_cases hlong : bytesNeeded h ≤ t.length
      · obtain ⟨raw', hread, hw, hbytes⟩ := readFrame_of_long hsys hsc hlong
        rw [hread] at hok
        cases hok
        exact ⟨hw, hbytes⟩
      · rw [readFrame_of_short hsys hsc (Nat.not_le.1 hlong)] at hok
        cases hok
    · rw [readFrame_reserved t hsys (Nat.not_lt.1 hsc)] at hok
      cases hok

theorem decode_of_readFrame {bs rest : List Byte} {raw : RawFrame} (h : readFrame bs = .ok (raw, rest)) :
    decode bs = .ok (instrOf raw, rest) := by
  rw [decode, h]

theorem decode_of_readFrame_error {bs : List Byte} {e : DecodeError} (h : readFrame bs = .error e) :
    decode bs = .error e := by
  rw [decode, h]

theorem decode_ok {bs rest : List Byte} {i : Instr} (hok : decode bs = .ok (i, rest)) :
    ∃ raw, raw.WellFormed ∧ i = instrOf raw ∧ raw.bytes ++ rest = bs := by
  cases hread : readFrame bs with
  | error e =>
    rw [decode_of_readFrame_error hread] at hok
    cases hok
  | ok r =>
    obtain ⟨raw, rest'⟩ := r
    rw [decode_of_readFrame hread] at hok
    cases hok
    obtain ⟨hw, hbytes⟩ := readFrame_ok hread
    exact ⟨raw, hw, rfl, hbytes⟩

/-! ### The kind selected for an encoded instruction -/

/-- A subtype id has bit 5 clear, so the mode-plus-8 flag put there is read back (30_encoding.md R103). -/
theorem subtypeByte_read_back : ∀ (id : Byte) (plus8 : Bool), id.getLsbD 5 = false →
    subtypeIdOf (subtypeByte id plus8) = id ∧ plus8Of (subtypeByte id plus8) = plus8 := by
  decide

theorem wellFormed_rawCmd {sc : Field3} {p : List Byte} (cmd : Field3) (chk : Byte)
    (h : bodyWf sc p = true) : (rawCmd cmd sc p chk).WellFormed := by
  have hsc : sc.toNat < 6 := of_decide_eq_true (Bool.and_eq_true_iff.1 h).1
  simpa [rawCmd, RawFrame.WellFormed, categoryOf_headerByte, sizeField_headerByte, hsc]
    using length_of_bodyWf h

theorem wellFormed_rawInfo {sc : Field3} {p : List Byte} (id : Byte) (wire : Field3) (plus8 : Bool)
    (chk : Byte) (h : bodyWf sc p = true) : (rawInfo id sc wire plus8 p chk).WellFormed := by
  have hsc : sc.toNat < 6 := of_decide_eq_true (Bool.and_eq_true_iff.1 h).1
  simpa [rawInfo, RawFrame.WellFormed, categoryOf_headerByte, sizeField_headerByte, hsc]
    using length_of_bodyWf h

/-- A well-formed instruction stands for a frame that can stand on the wire. -/
theorem wellFormed_rawOf {i : Instr} (h : i.wf = true) : (rawOf i).WellFormed := by
  cases i with
  | sys sizeBits code => exact categoryOf_headerByte ..
  | cmdType | cmdModes | cmdSpeed | cmdSelect | cmdWrite | cmdUnk1 | cmdExtMode | cmdVersion =>
    exact wellFormed_rawCmd _ _ h
  | infoName | infoRaw | infoPct | infoSi | infoUnits | infoMapping | infoModeCombos | infoFormat =>
    exact wellFormed_rawInfo _ _ _ _ h
  | infoUnsupported sc wire plus8 id p chk =>
    exact wellFormed_rawInfo _ _ _ _ (Bool.and_eq_true_iff.1 h).1
  | data sc wire p chk =>
    have hsc : sc.toNat < 6 := of_decide_eq_true (Bool.and_eq_true_iff.1 h).1
    simpa [rawOf, RawFrame.WellFormed, categoryOf_headerByte, sizeField_headerByte, hsc]
      using length_of_bodyWf h

theorem instrOf_rawCmd (cmd sc : Field3) (p : List Byte) (chk : Byte) :
    instrOf (rawCmd cmd sc p chk) = selectCmd (headerByte .cmd sc cmd) p chk :=
  if_pos (categoryOf_headerByte ..)

/-- The instruction of an INFO frame by its fields (30_encoding.md R107, R112, R115). -/
def infoInstr (id : Byte) (sc wire : Field3) (plus8 : Bool) (p : List Byte) (chk : Byte) : Instr :=
  match id.toNat with
  | 0 => .infoName sc wire plus8 p chk
  | 1 => .infoRaw sc wire plus8 p chk
  | 2 => .infoPct sc wire plus8 p chk
  | 3 => .infoSi sc wire plus8 p chk
  | 4 => .infoUnits sc wire plus8 p chk
  | 5 => .infoMapping sc wire plus8 p chk
  | 6 => .infoModeCombos sc wire plus8 p chk
  | 0x80 => .infoFormat sc wire plus8 p chk
  | _ => .infoUnsupported sc wire plus8 id p chk

/-- The decoder selects by the fields of the header and the subtype byte alone. -/
theorem selectInfo_eq (h sub : Byte) (p : List Byte) (chk : Byte) : selectInfo h sub p chk =
    infoInstr (subtypeIdOf sub) (sizeField h) (codeField h) (plus8Of sub) p chk := rfl

/-- An unknown subtype id has bit 5 clear and is none of the eight (30_encoding.md R115). -/
theorem unknownIdWf_fields {id : Byte} (h : unknownIdWf id = true) :
    id.getLsbD 5 = false ∧ 6 < id.toNat ∧ id.toNat ≠ 0x80 := by
  simp only [unknownIdWf, Bool.and_eq_true, Bool.not_eq_true', decide_eq_true_eq, bne_iff_ne] at h
  obtain ⟨⟨hbit, hlow⟩, hformat⟩ := h
  exact ⟨hbit, hlow, fun heq => hformat (BitVec.eq_of_toNat_eq heq)⟩

theorem infoInstr_of_unknownIdWf {id : Byte} (sc wire : Field3) (plus8 : Bool) (p : List Byte) (chk : Byte)
    (h : unknownIdWf id = true) :
    infoInstr id sc wire plus8 p chk = .infoUnsupported sc wire plus8 id p chk := by
  obtain ⟨-, hlow, hne⟩ := unknownIdWf_fields h
  unfold infoInstr
  split
  case h_9 => rfl
  all_goals omega

/-- The fields an INFO frame was made of are read back from its header and subtype byte. -/
theorem instrOf_rawInfo {id : Byte} (sc wire : Field3) (plus8 : Bool) (p : List Byte) (chk : Byte)
    (hid : id.getLsbD 5 = false) :
    instrOf (rawInfo id sc wire plus8 p chk) = infoInstr id sc wire plus8 p chk := by
  obtain ⟨hback, hplus⟩ := subtypeByte_read_back id plus8 hid
  rw [rawInfo, instrOf, selectInfo_eq, sizeField_headerByte, codeField_headerByte, hback, hplus]

/-- The kind selected for the frame of a well-formed instruction is that instruction (30_encoding.md
R112). -/
theorem instrOf_rawOf {i : Instr} (h : i.wf = true) : instrOf (rawOf i) = i := by
  cases i with
  | sys sizeBits code => simp [rawOf, instrOf, sizeField_headerByte, codeField_headerByte]
  | cmdType | cmdModes | cmdSpeed | cmdSelect | cmdWrite | cmdUnk1 | cmdExtMode | cmdVersion =>
    rw [rawOf, instrOf_rawCmd, selectCmd, sizeField_headerByte, codeField_headerByte]
    rfl
  | infoName | infoRaw | infoPct | infoSi | infoUnits | infoMapping | infoModeCombos | infoFormat =>
    exact instrOf_rawInfo _ _ _ _ _ (by decide)
  | infoUnsupported sc wire plus8 id p chk =>
    obtain ⟨-, hid⟩ := Bool.and_eq_true_iff.1 h
    obtain ⟨hbit, -, -⟩ := unknownIdWf_fields hid
    rw [rawOf, instrOf_rawInfo _ _ _ _ _ hbit, infoInstr_of_unknownIdWf _ _ _ _ _ hid]
  | data sc wire p chk =>
    simp [rawOf, instrOf, categoryOf_headerByte, sizeField_headerByte, codeField_headerByte]

/-- Settles O1: the reader takes the bytes of the instruction's frame, and the kind selected for that
frame is the instruction. -/
theorem decodeOfEncode : Obligations.DecodeOfEncode := by
  intro i rest h
  rw [encode, decode_of_readFrame (readFrame_bytes (wellFormed_rawOf h) rest), instrOf_rawOf h]

/-! ### The instruction selected for a frame is well-formed -/

theorem bodyWf_of {sc : Field3} {p : List Byte} (hsc : sc.toNat < 6) (hp : p.length = 2 ^ sc.toNat) :
    bodyWf sc p = true := by
  simp [bodyWf, hsc, hp]

theorem wf_selectCmd {h : Byte} {p : List Byte} (chk : Byte) (hb : bodyWf (sizeField h) p = true) :
    (selectCmd h p chk).wf = true := by
  unfold selectCmd
  split <;> exact hb

theorem getLsbD_subtypeIdOf : ∀ sub : Byte, (subtypeIdOf sub).getLsbD 5 = false := by decide

theorem wf_infoInstr {id : Byte} {sc : Field3} {p : List Byte} (wire : Field3) (plus8 : Bool) (chk : Byte)
    (hid : id.getLsbD 5 = false) (hb : bodyWf sc p = true) :
    (infoInstr id sc wire plus8 p chk).wf = true := by
  unfold infoInstr
  split
  case h_9 hne0 hne1 hne2 hne3 hne4 hne5 hne6 hne7 =>
    simp only [imp_false] at hne0 hne1 hne2 hne3 hne4 hne5 hne6 hne7
    have hformat : id ≠ 0x80#8 := fun heq => hne7 (congrArg BitVec.toNat heq)
    have hlow : 6 < id.toNat := by omega
    simp only [Instr.wf, hb, unknownIdWf, hid, hlow, Bool.not_false, decide_true, Bool.true_and,
      bne_iff_ne]
    exact hformat
  all_goals exact hb

theorem wf_instrOf {raw : RawFrame} (hw : raw.WellFormed) : (instrOf raw).wf = true := by
  cases raw with
  | single h => rfl
  | plain h p c =>
    obtain ⟨-, -, hsc, hp⟩ := hw
    rw [instrOf]
    split
    · exact wf_selectCmd c (bodyWf_of hsc hp)
    · exact bodyWf_of hsc hp
  | withSub h sub p c =>
    obtain ⟨-, hsc, hp⟩ := hw
    exact wf_infoInstr _ _ c (getLsbD_subtypeIdOf sub) (bodyWf_of hsc hp)

/-- Settles O2: the instruction accepted is the one selected for a well-formed frame, so it is well-formed
and stands for that frame. -/
theorem encodeOfDecode : Obligations.EncodeOfDecode := by
  intro bs i rest hok
  obtain ⟨raw, hw, rfl, hbytes⟩ := decode_ok hok
  exact ⟨wf_instrOf hw, by rw [encode, rawOf_instrOf hw, hbytes]⟩

/-! ### What the decoder rejects -/

theorem bytesNeeded_eq (h : Byte) :
    bytesNeeded h = 2 ^ (h.toNat / 8 % 8) + if h.toNat / 64 = 2 then 2 else 1 := by
  simp only [bytesNeeded, Machine.toNat_sizeField, Machine.categoryOf_eq_info_iff]

/-- Settles O3: the reader's answer by header byte and number of bytes that follow (44_frame_decoder.md
R222, R223). -/
theorem decodeRejectsByName : Obligations.DecodeRejectsByName := by
  refine ⟨rfl, fun h t hsys => ?sys, fun h t hcat hsc => ?reserved, fun h t hcat hsc => ?framed⟩
  case sys =>
    have hcat : categoryOf h = .sys := by
      by_contra hne
      exact absurd ((Machine.categoryOf_ne_sys_iff h).1 hne) (Nat.not_le.2 hsys)
    exact ⟨_, decode_of_readFrame (readFrame_sys t hcat)⟩
  case reserved =>
    rw [← Machine.toNat_sizeField] at hsc
    exact decode_of_readFrame_error (readFrame_reserved t ((Machine.categoryOf_ne_sys_iff h).2 hcat) hsc)
  case framed =>
    have hcat := (Machine.categoryOf_ne_sys_iff h).2 hcat
    rw [← Machine.toNat_sizeField] at hsc
    rw [← bytesNeeded_eq]
    refine ⟨fun hcut => decode_of_readFrame_error (readFrame_of_short hcat hsc hcut), fun hlong => ?_⟩
    obtain ⟨raw, hread, -, -⟩ := readFrame_of_long hcat hsc hlong
    exact ⟨_, decode_of_readFrame hread⟩

/-- Settles O5: each word is the encoding of its instruction, written out. -/
theorem writtenWordsDecode : Obligations.WrittenWordsDecode :=
  ⟨decodeOfEncode (.sys 7 2) [] rfl, decodeOfEncode (.cmdType 0 [0x22] 0x9D) [] rfl,
    decodeOfEncode (.cmdModes 1 [0x03, 0x02] 0xB7) [] rfl,
    decodeOfEncode (.infoName 0 1 true [0x58] 0x06) [] rfl,
    decodeOfEncode (.infoFormat 2 2 true [0x03, 0x01, 0x05, 0x01] 0xCB) [] rfl,
    decodeOfEncode (.infoUnsupported 0 4 true 0x47 [0x01] 0x1D) [] rfl,
    decodeOfEncode (.data 0 0 [0x00] 0x00) [] rfl⟩

/-! ### The rows of the opcode table -/

/-- A 16-bit mask and match word compare the header with their high byte and the next byte with their low
byte (30_encoding.md R112). -/
theorem masked_word_eq_iff (hdr next maskHi maskLo hi lo : Byte) :
    (hdr ++ next) &&& (maskHi ++ maskLo) = hi ++ lo ↔ hdr &&& maskHi = hi ∧ next &&& maskLo = lo := by
  rw [BitVec.and_append]
  refine ⟨fun h => ⟨?_, ?_⟩, fun ⟨hhi, hlo⟩ => by rw [hhi, hlo]⟩
  · have hleft := congrArg (BitVec.extractLsb' 8 8) h
    rwa [BitVec.extractLsb'_append_eq_left, BitVec.extractLsb'_append_eq_left] at hleft
  · have hright := congrArg (BitVec.setWidth 8) h
    rwa [BitVec.setWidth_append_eq_right, BitVec.setWidth_append_eq_right] at hright

/-- A row of one byte does not look at the next byte. -/
theorem applies_of_narrow {r : OpcodeRow} (hwidth : r.width = 8) (h next : Byte) :
    r.applies h next = r.applies h 0 := by
  simp only [OpcodeRow.applies, if_pos hwidth]

/-- The rows of two bytes ask for category INFO in the header. -/
theorem wide_rows : ∀ r ∈ opcodeTable, r.width ≠ 8 →
    r.mask = 0xC0#8 ++ r.mask.setWidth 8 ∧ r.matchBits = 0x80#8 ++ r.matchBits.setWidth 8 := by
  decide

theorem category_masked : ∀ h : Byte, h &&& 0xC0#8 = 0x80#8 ↔ categoryOf h = .info := by decide

theorem applies_of_wide {r : OpcodeRow} (hr : r ∈ opcodeTable) (hwidth : r.width ≠ 8) (h next : Byte) :
    r.applies h next = true ↔
      categoryOf h = .info ∧ next &&& r.mask.setWidth 8 = r.matchBits.setWidth 8 := by
  obtain ⟨hmask, hmatch⟩ := wide_rows r hr hwidth
  rw [OpcodeRow.applies, if_neg hwidth, beq_iff_eq, hmask, hmatch, masked_word_eq_iff, category_masked,
    BitVec.setWidth_append_eq_right, BitVec.setWidth_append_eq_right]

theorem kindsSelected_congr {h next h' next' : Byte}
    (hrows : ∀ r ∈ opcodeTable, r.applies h next = r.applies h' next') :
    kindsSelected h next = kindsSelected h' next' := by
  rw [kindsSelected, kindsSelected, List.filter_congr hrows]

theorem narrow_rows_of_info : ∀ r ∈ opcodeTable, r.width = 8 → ∀ h : Byte, categoryOf h = .info →
    r.applies h 0 = r.applies 0x80 0 := by
  decide

/-- Of an INFO header the rows see the category alone. -/
theorem kindsSelected_of_info {h : Byte} (hcat : categoryOf h = .info) (next : Byte) :
    kindsSelected h next = kindsSelected 0x80 next := by
  refine kindsSelected_congr fun r hr => ?_
  by_cases hwidth : r.width = 8
  · rw [applies_of_narrow hwidth, applies_of_narrow hwidth 0x80, narrow_rows_of_info r hr hwidth h hcat]
  · have hcat' : categoryOf 0x80 = .info := rfl
    rw [Bool.eq_iff_iff, applies_of_wide hr hwidth, applies_of_wide hr hwidth]
    simp only [hcat, hcat']

/-- Outside INFO the rows do not see the next byte. -/
theorem kindsSelected_of_not_info {h : Byte} (hcat : categoryOf h ≠ .info) (next : Byte) :
    kindsSelected h next = kindsSelected h 0 := by
  refine kindsSelected_congr fun r hr => ?_
  by_cases hwidth : r.width = 8
  · exact applies_of_narrow hwidth h next
  · rw [Bool.eq_iff_iff, applies_of_wide hr hwidth, applies_of_wide hr hwidth]
    simp only [hcat, false_and]

/-- The kind the decoder gives a frame that begins with these two bytes (30_encoding.md R112). -/
def kindOfPair (h next : Byte) : Kind :=
  match categoryOf h with
  | .sys => .sys
  | .cmd => (selectCmd h [] 0).kind
  | .info => (infoInstr (subtypeIdOf next) 0 0 false [] 0).kind
  | .data => .data

theorem kindsSelected_info_header :
    ∀ next : Byte, kindsSelected 0x80 next = [(infoInstr (subtypeIdOf next) 0 0 false [] 0).kind] := by
  decide

theorem kindsSelected_plain_header :
    ∀ h : Byte, categoryOf h ≠ .info → kindsSelected h 0 = [kindOfPair h 0] := by
  decide

theorem kindsSelected_eq (h next : Byte) : kindsSelected h next = [kindOfPair h next] := by
  by_cases hcat : categoryOf h = .info
  · rw [kindsSelected_of_info hcat, kindsSelected_info_header]
    simp only [kindOfPair, hcat]
  · rw [kindsSelected_of_not_info hcat, kindsSelected_plain_header h hcat]
    cases hc : categoryOf h with
    | info => exact absurd hc hcat
    | sys | cmd | data => simp only [kindOfPair, hc]

theorem kind_selectCmd (h : Byte) (p : List Byte) (chk : Byte) :
    (selectCmd h p chk).kind = (selectCmd h [] 0).kind := by
  unfold selectCmd
  split <;> rfl

theorem kind_infoInstr (id : Byte) (sc wire : Field3) (plus8 : Bool) (p : List Byte) (chk : Byte) :
    (infoInstr id sc wire plus8 p chk).kind = (infoInstr id 0 0 false [] 0).kind := by
  unfold infoInstr
  split <;> rfl

/-- The kind of a frame is a function of its first two bytes; the second may lie behind a SYS byte. -/
theorem kind_instrOf {raw : RawFrame} {h next : Byte} {rest tail : List Byte} (hw : raw.WellFormed)
    (hbytes : raw.bytes ++ tail = h :: next :: rest) : (instrOf raw).kind = kindOfPair h next := by
  cases raw with
  | single h' =>
    obtain ⟨rfl, -⟩ := List.cons.inj hbytes
    have hcat : categoryOf h' = .sys := hw
    simp only [instrOf, Instr.kind, kindOfPair, hcat]
  | plain h' p c =>
    obtain ⟨rfl, -⟩ := List.cons.inj hbytes
    obtain ⟨hsys, hinfo, -, -⟩ := hw
    cases hcat : categoryOf h' with
    | sys => exact absurd hcat hsys
    | info => exact absurd hcat hinfo
    | cmd => simp only [instrOf, kindOfPair, hcat, if_true, kind_selectCmd h' p c]
    | data => simp [instrOf, kindOfPair, hcat, Instr.kind]
  | withSub h' sub p c =>
    obtain ⟨rfl, htail⟩ := List.cons.inj hbytes
    obtain ⟨rfl, -⟩ := List.cons.inj htail
    obtain ⟨hcat, -, -⟩ := hw
    simp only [instrOf, selectInfo_eq, kindOfPair, hcat, kind_infoInstr _ (sizeField h')]

/-- Settles O4: the rows and the decoder both give `kindOfPair`. -/
theorem eachPairSelectsOneKind : Obligations.EachPairSelectsOneKind := by
  intro h next
  refine ⟨kindOfPair h next, kindsSelected_eq h next, fun rest tail i hok => ?_⟩
  obtain ⟨raw, hw, rfl, hbytes⟩ := decode_ok hok
  exact kind_instrOf hw hbytes

end Sys2Proof

namespace Sys2Proof.Machine

open Sys2Proof.Safety (DecoderInv)
open Sys2Proof.Laws.EncodedSize (categoryOf_headerByte sizeField_headerByte)

/-! ### The dispatcher by number -/

/-- The record of a CMD frame carries what the codec of its command field decodes (44_frame_decoder.md
R233). -/
theorem frameRecord_rawCmd (cmd sc : Field3) (p : List Byte) (chk acc : Byte) :
    frameRecord (rawCmd cmd sc p chk) acc = cmdFrame cmd sc p chk acc (decodeCmdPayload cmd p) := by
  simp [frameRecord, rawCmd, cmdFrame, decodePayload, categoryOf_headerByte, sizeField_headerByte,
    codeField_headerByte]

theorem frameRecord_rawInfo {id : Byte} (sc wire : Field3) (plus8 : Bool) (p : List Byte) (chk acc : Byte)
    (hid : id.getLsbD 5 = false) :
    frameRecord (rawInfo id sc wire plus8 p chk) acc =
      infoFrame id sc wire plus8 p chk acc (decodeInfoPayload wire (subtypeByte id plus8) p) := by
  obtain ⟨-, hplus⟩ := subtypeByte_read_back id plus8 hid
  simp only [frameRecord, rawInfo, infoFrame, decodePayload, categoryOf_headerByte, sizeField_headerByte,
    codeField_headerByte, hplus]

/-- The INFO codec named by the subtype id that a subtype byte was made of (44_frame_decoder.md R233). -/
def decodeInfoById (id : Byte) (mode : LogicalMode) (p : List Byte) : Msg :=
  match id.toNat with
  | 0x00 => decodeInfoName mode p
  | 0x01 => decodeInfoRaw mode p
  | 0x02 => decodeInfoPct mode p
  | 0x03 => decodeInfoSi mode p
  | 0x04 => decodeInfoUnits mode p
  | 0x05 => decodeInfoMapping mode p
  | 0x06 => decodeInfoModeCombos mode p
  | 0x80 => decodeInfoFormat mode p
  | _ => decodeInfoUnsupported mode id p

theorem decodeInfoPayload_eq (wire : Field3) (sub : Byte) (p : List Byte) :
    decodeInfoPayload wire sub p = decodeInfoById (subtypeIdOf sub) (logicalMode wire (plus8Of sub)) p := rfl

theorem decodeInfoPayload_subtypeByte {id : Byte} (wire : Field3) (plus8 : Bool) (p : List Byte)
    (hid : id.getLsbD 5 = false) :
    decodeInfoPayload wire (subtypeByte id plus8) p = decodeInfoById id (logicalMode wire plus8) p := by
  obtain ⟨hback, hplus⟩ := subtypeByte_read_back id plus8 hid
  rw [decodeInfoPayload_eq, hback, hplus]

theorem decodeInfoById_of_unknownIdWf {id : Byte} (mode : LogicalMode) (p : List Byte)
    (h : unknownIdWf id = true) : decodeInfoById id mode p = decodeInfoUnsupported mode id p := by
  obtain ⟨-, hlow, hne⟩ := unknownIdWf_fields h
  unfold decodeInfoById
  split
  case h_9 => rfl
  all_goals omega

/-- The record of the frame of a well-formed instruction is the one its own meaning receives. -/
theorem exec_eq_receive {i : Instr} (s : State) (h : i.wf = true) :
    exec i s = receive (frameRecord (rawOf i) s.rxAcc) s := by
  cases i with
  | sys sizeBits code =>
    simp only [exec, execSys, sysFrame, rawOf, frameRecord, sizeField_headerByte, codeField_headerByte]
  | cmdType | cmdModes | cmdSpeed | cmdSelect | cmdWrite | cmdUnk1 | cmdExtMode | cmdVersion =>
    rw [rawOf, frameRecord_rawCmd]
    rfl
  | infoName | infoRaw | infoPct | infoSi | infoUnits | infoMapping | infoModeCombos | infoFormat =>
    rw [rawOf, frameRecord_rawInfo _ _ _ _ _ _ (by decide), decodeInfoPayload_subtypeByte _ _ _ (by decide)]
    rfl
  | infoUnsupported sc wire plus8 id p chk =>
    obtain ⟨-, hid⟩ := Bool.and_eq_true_iff.1 h
    obtain ⟨hbit, -, -⟩ := unknownIdWf_fields hid
    rw [rawOf, frameRecord_rawInfo _ _ _ _ _ _ hbit, decodeInfoPayload_subtypeByte _ _ _ hbit,
      decodeInfoById_of_unknownIdWf _ _ hid]
    rfl
  | data sc wire p chk =>
    simp [exec, execData, dataFrame, rawOf, frameRecord, decodePayload, categoryOf_headerByte,
      sizeField_headerByte, codeField_headerByte]

/-- Settles O34: both sides receive one record. -/
theorem execIsDispatchByNumber : Obligations.ExecIsDispatchByNumber :=
  fun _ s h => exec_eq_receive s h

/-! ### Feeding the bytes of one frame -/

theorem readFrame_own_bytes {raw : RawFrame} (hw : raw.WellFormed) :
    readFrame raw.bytes = .ok (raw, []) := by
  simpa using readFrame_bytes hw []

/-- At a byte of a well-formed frame the decoder takes the byte, if more are to come, or completes that
frame. -/
theorem fsByte_inside {raw : RawFrame} {b : Byte} {bs : List Byte} {s : State} (hw : raw.WellFormed)
    (hinv : DecoderInv s) (hbytes : taken s ++ b :: bs = raw.bytes) :
    (bs ≠ [] ∧ ∃ t, fsByte b s = (.pending, t) ∧ TakesByte b s t) ∨
    (bs = [] ∧ ∃ t, fsByte b s = (.complete (instrOf raw), t) ∧ CompletesFrame b s raw t) := by
  have hread := readFrame_own_bytes hw
  rw [← hbytes, List.append_cons] at hread
  rcases fsByte_of_decoderInv b hinv with ⟨t, hb, ht⟩ | ⟨-, hst, hcat, hsc⟩ | ⟨raw', t, hb, ht⟩
  · refine .inl ⟨fun hnil => ?_, t, hb, ht⟩
    have hst : t.rxState ≠ .idle := fun hidle => by simpa [taken_of_idle hidle] using ht.taken_eq
    rw [hnil, List.append_nil, ← ht.taken_eq, taken_of_ne_idle hst, readFrame_collected hst ht.inv] at hread
    cases hread
  · rw [taken_of_idle hst, List.nil_append, List.singleton_append, readFrame_reserved bs hcat hsc] at hread
    cases hread
  · rw [← ht.bytes_eq, readFrame_bytes ht.wellFormed] at hread
    cases hread
    exact .inr ⟨rfl, t, hb, ht⟩

/-- Feeding bytes of a frame that are not its last: all are taken. -/
theorem feedDecoder_inside {raw : RawFrame} {bs : List Byte} (hw : raw.WellFormed) (hmore : bs ≠ [])
    (pre : List Byte) {s : State} (hinv : DecoderInv s) (hbytes : taken s ++ (pre ++ bs) = raw.bytes) :
    DecoderInv (feedDecoder pre s) ∧ taken (feedDecoder pre s) = taken s ++ pre ∧
      (feedDecoder pre s).rxPos = s.rxPos + pre.length := by
  induction pre generalizing s with
  | nil => exact ⟨hinv, (List.append_nil _).symm, rfl⟩
  | cons b pre ih =>
    rcases fsByte_inside hw hinv hbytes with ⟨-, t, hb, ht⟩ | ⟨hnil, -⟩
    · have htaken : taken t ++ (pre ++ bs) = raw.bytes := by
        rw [ht.taken_eq, ← hbytes, List.append_assoc]
        rfl
      have hfed : feedDecoder (b :: pre) s = feedDecoder pre t := by rw [feedDecoder, hb]
      obtain ⟨hinv', htaken', hpos⟩ := ih ht.inv htaken
      rw [hfed]
      exact ⟨hinv', by rw [htaken', ht.taken_eq, List.append_assoc]; rfl,
        by rw [hpos, ht.rxPos_eq, List.length_cons]; omega⟩
    · exact absurd (List.append_eq_nil_iff.1 hnil).2 hmore

theorem bytes_ne_nil (raw : RawFrame) : raw.bytes ≠ [] := by
  cases raw <;> exact List.cons_ne_nil _ _

/-- Settles O37: every byte before the last is taken into the frame, and the last completes it. -/
theorem frameAdvancesByItsSize : Obligations.FrameAdvancesByItsSize := by
  intro i s hwf hidle
  have hw := wellFormed_rawOf hwf
  have hinv := decoderInv_of_idle hidle
  obtain ⟨first, last, hsplit⟩ := List.eq_nil_or_concat' (rawOf i).bytes |>.resolve_left (bytes_ne_nil _)
  have hfed {pre bs : List Byte} (hpre : pre ++ bs = (rawOf i).bytes) (hmore : bs ≠ []) :
      DecoderInv (feedDecoder pre s) ∧ taken (feedDecoder pre s) = pre ∧
        (feedDecoder pre s).rxPos = s.rxPos + pre.length := by
    have hinside := feedDecoder_inside hw hmore pre hinv
    rw [taken_of_idle hidle, List.nil_append, List.nil_append] at hinside
    exact hinside hpre
  have hbyte {pre bs : List Byte} {b : Byte} (hpre : pre ++ b :: bs = (rawOf i).bytes) := by
    obtain ⟨hinv', htaken, -⟩ := hfed hpre (List.cons_ne_nil _ _)
    exact fsByte_inside hw hinv' (htaken.symm ▸ hpre)
  obtain ⟨-, -, hpos⟩ := hfed hsplit.symm (List.cons_ne_nil _ _)
  rcases hbyte hsplit.symm with ⟨hne, -⟩ | ⟨-, t, hlast, ht⟩
  · exact absurd rfl hne
  rw [instrOf_rawOf hwf] at hlast
  refine ⟨first, last, t, hsplit, fun k hk => ?_, hlast, ?_, ht.idle⟩
  · have hpre : first.take k ++ first[k] :: (first.drop (k + 1) ++ [last]) = (rawOf i).bytes := by
      rw [hsplit, ← List.cons_append, ← List.drop_eq_getElem_cons hk, ← List.append_assoc,
        List.take_append_drop]
    rcases hbyte hpre with ⟨-, u, hpending, -⟩ | ⟨hnil, -⟩
    · rw [List.getD_eq_getElem _ _ hk, hpending]
    · exact absurd (List.append_eq_nil_iff.1 hnil).2 (List.cons_ne_nil _ _)
  · rw [ht.rxPos_eq, hpos, Nat.add_assoc]

end Sys2Proof.Machine

/-! SUPPORT. One step by cases: what the handler of an event does in each phase, as one relation, and the
two invariants of a run (46_session.md R282 to R308). -/

namespace Sys2Proof.Machine

open Sys2Proof.Safety (NextEvent WellFormedCfg DecoderInv SessionInv MidFrame held delivered)

/-! ### What a handler does -/

/-- The event fails an attempt of the handshake: a read timeout, or the last byte of a blob that is not
the reference (46_session.md R286, R287). -/
def FailsAttempt (s : State) (ev : Event) : Prop :=
  ev = .idle ∨ ∃ b, ev = .rx b ∧ (s.hsBuf ++ [b]).length = s.cfg.refBlob.length ∧
    s.hsBuf ++ [b] ≠ s.cfg.refBlob

/-- What an event other than a reset does, before the scheduler: one case per rule of 46_session.md R283 to
R306. -/
inductive Handles (now : Nat) (s : State) : Event → State → Prop
  | startRejected (hphase : s.phase ≠ .disconnected) :
      Handles now s .start (rejectEvent .alreadyStarted s)
  | submitRejected (q : Query) (hphase : s.phase ≠ .active) :
      Handles now s (.submit q) (rejectEvent .notActive s)
  | queryBusy (q : Query) (hphase : s.phase = .active) (hbusy : s.pendingQuery ≠ none) :
      Handles now s (.submit q) (rejectEvent .queryBusy s)
  | queryRefused (q : Query) (c : Condition) (hphase : s.phase = .active) (hfree : s.pendingQuery = none)
      (henc : encodeQuery s.cfg q = .error c) : Handles now s (.submit q) (rejectEvent c s)
  | queryKept (q : Query) (eq : EncodedQuery) (hphase : s.phase = .active) (hfree : s.pendingQuery = none)
      (henc : encodeQuery s.cfg q = .ok eq) :
      Handles now s (.submit q) { s with pendingQuery := some eq }
  | ignored (ev : Event) (hphase : s.phase = .disconnected)
      (hev : (∃ b, ev = .rx b) ∨ ev = .idle ∨ ev = .closed) : Handles now s ev s
  | settling (ev : Event) (hphase : s.phase = .handshaking) (hstep : s.hsStep = .settle)
      (hev : ev = .idle ∨ ∃ b, ev = .rx b) : Handles now s ev s
  | quiet (hphase : s.phase = .active) (hidle : s.rxState = .idle) : Handles now s .idle s
  | started (hphase : s.phase = .disconnected) (hcfg : WellFormedCfg s.tickNs s.cfg) :
      Handles now s .start { s with
        outputs := s.outputs ++ [.openTransport s.cfg.handshakeBaud]
        activeBaud := s.cfg.handshakeBaud
        hsLeft := s.cfg.hsAttempts
        hsBuf := []
        hsStep := .capture
        phase := .handshaking }
  | captured (b : Byte) (hphase : s.phase = .handshaking) (hstep : s.hsStep = .capture)
      (hlen : (s.hsBuf ++ [b]).length ≠ s.cfg.refBlob.length) :
      Handles now s (.rx b) { s with hsBuf := s.hsBuf ++ [b] }
  | matched (b : Byte) (hphase : s.phase = .handshaking) (hstep : s.hsStep = .capture)
      (hblob : s.hsBuf ++ [b] = s.cfg.refBlob) :
      Handles now s (.rx b) { s with
        outputs := s.outputs ++ [.tx [s.cfg.sysAck]]
        hsBuf := []
        hsStep := .settle
        settleDeadline := now + s.cfg.settleDelay }
  | retried (ev : Event) (hphase : s.phase = .handshaking) (hstep : s.hsStep = .capture)
      (hfail : FailsAttempt s ev) (hleft : 2 ≤ s.hsLeft) :
      Handles now s ev { s with
        outputs := s.outputs ++ [.report (.handshakeMismatch (s.hsLeft - 1))]
        hsLeft := s.hsLeft - 1
        hsBuf := [] }
  | gaveUp (ev : Event) (hphase : s.phase = .handshaking) (hstep : s.hsStep = .capture)
      (hfail : FailsAttempt s ev) (hleft : s.hsLeft ≤ 1) : Handles now s ev (fatal .deviceNotFound s)
  | closed (hphase : s.phase ≠ .disconnected) : Handles now s .closed (fatal .transportClosed s)
  | shortRead (hphase : s.phase = .active) (hinside : s.rxState ≠ .idle) :
      Handles now s .idle (fatal .peerDisconnect s)
  | reservedHeader (b hdr : Byte) (u : State) (hphase : s.phase = .active)
      (hb : fsByte b s = (.error hdr, u)) :
      Handles now s (.rx b) (fatal (.reservedSizeClass hdr) u)
  | latched (b : Byte) (u : State) (hphase : s.phase = .active) (hb : fsByte b s = (.pending, u)) :
      Handles now s (.rx b) u
  | completed (b : Byte) (i : Instr) (u t : State) (hphase : s.phase = .active)
      (hb : fsByte b s = (.complete i, u)) (hexec : exec i u = .next t) : Handles now s (.rx b) t

section
variable {now : Nat} {s t : State} {ev : Event}

theorem handles_of_disconnected (hreset : ev ≠ .reset) (hphase : s.phase = .disconnected)
    (h : handleDisconnected ev s = .next t) : Handles now s ev t := by
  rcases handleDisconnected_cases ev s t hreset h with ⟨rfl, hstart⟩ | ⟨q, rfl, rfl⟩ | ⟨hev, rfl⟩
  · rcases startSession_cases s with ⟨hcfg, heq⟩ | ⟨-, heq⟩ <;> rw [heq] at hstart <;> cases hstart
    exact .started hphase hcfg
  · exact .submitRejected q (by simp [hphase])
  · exact .ignored ev hphase hev

theorem handles_of_hsFail (hphase : s.phase = .handshaking) (hstep : s.hsStep = .capture)
    (hfail : FailsAttempt s ev) : Handles now s ev (hsFail s) := by
  by_cases hleft : 2 ≤ s.hsLeft
  · rw [hsFail_of_two_le hleft]
    exact .retried ev hphase hstep hfail hleft
  · have hleft : s.hsLeft ≤ 1 := Nat.lt_succ_iff.1 (Nat.not_le.1 hleft)
    rw [hsFail_of_le_one hleft]
    exact .gaveUp ev hphase hstep hfail hleft

theorem handles_of_capture (b : Byte) (hphase : s.phase = .handshaking) (hstep : s.hsStep = .capture) :
    Handles now s (.rx b) (capture b now s) := by
  rcases capture_cases b now s with ⟨hlen, heq⟩ | ⟨hblob, heq⟩ | ⟨hlen, hne, -⟩
  · rw [heq]
    exact .captured b hphase hstep hlen
  · rw [heq]
    exact .matched b hphase hstep hblob
  · rw [capture_of_mismatch now hlen hne]
    exact handles_of_hsFail hphase hstep (.inr ⟨b, rfl, hlen, hne⟩)

theorem handles_of_handshaking (hreset : ev ≠ .reset) (hphase : s.phase = .handshaking)
    (h : handleHandshaking ev now s = .next t) : Handles now s ev t := by
  rcases handleHandshaking_cases ev now s t hreset h with ⟨rfl, rfl⟩ | ⟨q, rfl, rfl⟩ | ⟨rfl, rfl⟩ |
    ⟨rfl, hstep, rfl⟩ | ⟨b, rfl, hstep, rfl⟩ | ⟨hev, hstep, rfl⟩
  · exact .startRejected (by simp [hphase])
  · exact .submitRejected q (by simp [hphase])
  · exact .closed (by simp [hphase])
  · exact handles_of_hsFail hphase hstep (.inl rfl)
  · exact handles_of_capture b hphase hstep
  · exact .settling ev hphase hstep hev

theorem handles_of_active (hreset : ev ≠ .reset) (hphase : s.phase = .active)
    (h : handleActive ev s = .next t) : Handles now s ev t := by
  rcases handleActive_cases ev s t hreset h with ⟨rfl, rfl⟩ | ⟨q, rfl, rfl⟩ | ⟨rfl, rfl⟩ |
    ⟨rfl, hidle, rfl⟩ | ⟨rfl, hinside, rfl⟩ | ⟨b, rfl, hrx⟩
  · exact .startRejected (by simp [hphase])
  · rcases submitActive_cases q s with ⟨hbusy, heq⟩ | ⟨hfree, c, henc, heq⟩ | ⟨hfree, eq, henc, heq⟩ <;>
      rw [heq]
    · exact .queryBusy q hphase hbusy
    · exact .queryRefused q c hphase hfree henc
    · exact .queryKept q eq hphase hfree henc
  · exact .closed (by simp [hphase])
  · exact .quiet hphase hidle
  · exact .shortRead hphase hinside
  · rcases rxActive_cases b s t hrx with hb | ⟨hdr, u, hb, rfl⟩ | ⟨i, u, hb, hexec⟩
    · exact .latched b t hphase hb
    · exact .reservedHeader b hdr u hphase hb
    · exact .completed b i u t hphase hb hexec

/-- Everything a handler can answer. -/
theorem handles_of_handleEvent (hreset : ev ≠ .reset) (h : handleEvent ev now s = .next t) :
    Handles now s ev t := by
  unfold handleEvent at h
  split at h
  case h_1 hphase => exact handles_of_disconnected hreset hphase h
  case h_2 hphase => exact handles_of_handshaking hreset hphase h
  case h_3 hphase => exact handles_of_active hreset hphase h

theorem handleEvent_of_disconnected (h : s.phase = .disconnected) :
    handleEvent ev now s = handleDisconnected ev s := by
  simp only [handleEvent, h]

theorem handleEvent_of_handshaking (h : s.phase = .handshaking) :
    handleEvent ev now s = handleHandshaking ev now s := by
  simp only [handleEvent, h]

theorem handleEvent_of_active (h : s.phase = .active) : handleEvent ev now s = handleActive ev s := by
  simp only [handleEvent, h]

theorem handleHandshaking_of_fails (hstep : s.hsStep = .capture) (hfail : FailsAttempt s ev) :
    handleHandshaking ev now s = .next (hsFail s) := by
  rcases hfail with rfl | ⟨b, rfl, hlen, hne⟩
  · exact handleHandshaking_idle_of_capture now hstep
  · rw [handleHandshaking_rx_of_capture now hstep, capture_of_mismatch now hlen hne]

/-- The relation says no more than the handlers do. -/
theorem handleEvent_of_handles (h : Handles now s ev t) : handleEvent ev now s = .next t := by
  cases h with
  | startRejected hphase =>
    cases hp : s.phase with
    | disconnected => exact absurd hp hphase
    | handshaking => rw [handleEvent_of_handshaking hp, handleHandshaking]
    | active => rw [handleEvent_of_active hp, handleActive]
  | submitRejected q hphase =>
    cases hp : s.phase with
    | disconnected => rw [handleEvent_of_disconnected hp, handleDisconnected]
    | handshaking => rw [handleEvent_of_handshaking hp, handleHandshaking]
    | active => exact absurd hp hphase
  | queryBusy q hphase hbusy =>
    rw [handleEvent_of_active hphase, handleActive, submitActive_of_waiting hbusy]
  | queryRefused q c hphase hfree henc =>
    rw [handleEvent_of_active hphase, handleActive, submitActive_of_error hfree henc]
  | queryKept q eq hphase hfree henc =>
    rw [handleEvent_of_active hphase, handleActive, submitActive_of_ok hfree henc]
  | ignored _ hphase hev =>
    rw [handleEvent_of_disconnected hphase]
    rcases hev with ⟨b, rfl⟩ | rfl | rfl <;> rfl
  | settling _ hphase hstep hev =>
    rw [handleEvent_of_handshaking hphase]
    rcases hev with rfl | ⟨b, rfl⟩
    · exact handleHandshaking_idle_of_settle now hstep
    · exact handleHandshaking_rx_of_settle now hstep
  | quiet hphase hidle => rw [handleEvent_of_active hphase, handleActive, idleActive, if_pos hidle]
  | started hphase hcfg =>
    rw [handleEvent_of_disconnected hphase, handleDisconnected]
    rcases startSession_cases s with ⟨-, heq⟩ | ⟨hbad, -⟩
    · exact heq
    · exact absurd hcfg hbad
  | captured b hphase hstep hlen =>
    rw [handleEvent_of_handshaking hphase, handleHandshaking_rx_of_capture now hstep,
      capture_of_length_ne now hlen]
  | matched b hphase hstep hblob =>
    rw [handleEvent_of_handshaking hphase, handleHandshaking_rx_of_capture now hstep,
      capture_of_match now hblob]
  | retried _ hphase hstep hfail hleft =>
    rw [handleEvent_of_handshaking hphase, handleHandshaking_of_fails hstep hfail, hsFail_of_two_le hleft]
  | gaveUp _ hphase hstep hfail hleft =>
    rw [handleEvent_of_handshaking hphase, handleHandshaking_of_fails hstep hfail, hsFail_of_le_one hleft]
  | closed hphase =>
    cases hp : s.phase with
    | disconnected => exact absurd hp hphase
    | handshaking => rw [handleEvent_of_handshaking hp, handleHandshaking]
    | active => rw [handleEvent_of_active hp, handleActive]
  | shortRead hphase hinside =>
    rw [handleEvent_of_active hphase, handleActive, idleActive, if_neg hinside]
  | reservedHeader b hdr u hphase hb => rw [handleEvent_of_active hphase, handleActive, rxActive, hb]
  | latched b u hphase hb => rw [handleEvent_of_active hphase, handleActive, rxActive, hb]
  | completed b i u t hphase hb hexec =>
    rw [handleEvent_of_active hphase, handleActive, rxActive, hb]
    exact hexec

end

/-- The scheduler, which runs in `Active` alone (46_session.md R282). -/
def schedActive (now : Nat) (t : State) : State := if t.phase = .active then sched now t else t

theorem schedIfActive_next (now : Nat) (t : State) : schedIfActive now (.next t) = .next (schedActive now t) :=
  rfl

/-- One step: wait, a configuration write, a reset, or an event, which the settle test, the handler and
the scheduler take in turn (46_session.md R282). -/
theorem step_handles {s s' : State} (h : step s = .next s') :
    (s.inputs = [] ∧ s' = s) ∨
    (∃ c rest, s.inputs = .configure c :: rest ∧ s.phase = .disconnected ∧
      s' = { s with inputs := rest, cfg := c }) ∨
    (∃ now rest, NextEvent s .reset now rest ∧ s' = resetRegisters { s with inputs := rest }) ∨
    (∃ ev now rest t, NextEvent s ev now rest ∧ ev ≠ .reset ∧
      Handles now (settleTest now { s with inputs := rest }) ev t ∧ s' = schedActive now t) := by
  rcases step_cases s s' h with hwait | hcfg | hreset | ⟨ev, now, rest, t, hin, hne, hhandle, heq⟩
  · exact .inl hwait
  · exact .inr (.inl hcfg)
  · exact .inr (.inr (.inl hreset))
  · exact .inr (.inr (.inr ⟨ev, now, rest, t, hin, hne, handles_of_handleEvent hne hhandle, heq⟩))

/-- A property that every part of a step keeps is kept by every step. -/
theorem step_keeps {P : State → Prop} (hinputs : ∀ s rest, P s → P { s with inputs := rest })
    (hcfg : ∀ s c, s.phase = .disconnected → P s → P { s with cfg := c })
    (hreset : ∀ s, P (resetRegisters s))
    (hactivate : ∀ now s, s.phase = .handshaking → P s → P (activate now s))
    (hhandle : ∀ now s ev t, P s → Handles now s ev t → P t)
    (hsched : ∀ now s, s.phase = .active → P s → P (sched now s))
    {s s' : State} (hs : P s) (h : step s = .next s') : P s' := by
  rcases step_handles h with ⟨-, rfl⟩ | ⟨c, rest, -, hphase, rfl⟩ | ⟨now, rest, -, rfl⟩ |
    ⟨ev, now, rest, t, -, -, ht, rfl⟩
  · exact hs
  · exact hcfg { s with inputs := rest } c hphase (hinputs s rest hs)
  · exact hreset _
  · have hu : P (settleTest now { s with inputs := rest }) := by
      rcases settleTest_cases now { s with inputs := rest } with ⟨hphase, -, -, heq⟩ | ⟨-, heq⟩ <;> rw [heq]
      · exact hactivate now _ hphase (hinputs s rest hs)
      · exact hinputs s rest hs
    have ht := hhandle now _ ev t hu ht
    by_cases hphase : t.phase = .active
    · rw [schedActive, if_pos hphase]
      exact hsched now t hphase ht
    · rwa [schedActive, if_neg hphase]

/-! ### A completed frame -/

/-- A meaning reports a checksum fault or not, and then holds an EXT_MODE frame or delivers. -/
theorem exec_cases {i : Instr} {s t : State} (h : exec i s = .next t) :
    ∃ f reports, (reports = [] ∨ ∃ rx acc, reports = [.report (.checksumFault rx acc)]) ∧
      ((s.extHold = none ∧ f.cat = .cmd ∧ f.code = 6 ∧ t = held f reports s) ∨
        t = delivered f reports s) := by
  obtain ⟨f, hf⟩ := exec_next i s
  rw [hf] at h
  cases h
  obtain ⟨reports, hreports, hr⟩ : ∃ reports,
      (reports = [] ∨ ∃ rx acc, reports = [Action.report (.checksumFault rx acc)]) ∧
        reportChecksum f s = { s with outputs := s.outputs ++ reports } := by
    rcases reportChecksum_cases f s with hr | ⟨rx, acc, -, -, -, hr⟩
    · exact ⟨[], .inl rfl, by simp [hr]⟩
    · exact ⟨_, .inr ⟨rx, acc, rfl⟩, hr⟩
  refine ⟨f, reports, hreports, ?_⟩
  rw [hr]
  rcases onFrame_cases f { s with outputs := s.outputs ++ reports } with ⟨hnone, hext, ho⟩ | ⟨-, ho⟩
  · obtain ⟨hcat, hcode⟩ := (isExtMode_iff f).1 hext
    exact .inl ⟨hnone, hcat, hcode, ho⟩
  · exact .inr ho

/-! ### The decoder invariant -/

/-- The invariant reads the registers of the frame decoder alone. -/
theorem decoderInv_congr {s t : State} (hst : t.rxState = s.rxState) (hhdr : t.rxHdr = s.rxHdr)
    (hsub : t.rxSub = s.rxSub) (hbuf : t.rxBuf = s.rxBuf) (hlen : t.rxLen = s.rxLen)
    (hcnt : t.rxCnt = s.rxCnt) (hacc : t.rxAcc = s.rxAcc) (h : DecoderInv s) : DecoderInv t := by
  simpa only [DecoderInv, MidFrame, Safety.collected, hst, hhdr, hsub, hbuf, hlen, hcnt, hacc] using h

/-- A completed frame leaves the decoder as it is. -/
theorem exec_keeps_decoderInv {i : Instr} {s t : State} (h : exec i s = .next t) (hinv : DecoderInv s) :
    DecoderInv t := by
  obtain ⟨new, hold, mp, rfl⟩ := exec_frame i s t h
  exact decoderInv_congr rfl rfl rfl rfl rfl rfl rfl hinv

theorem handles_keeps_decoderInv {now : Nat} {s t : State} {ev : Event} (hinv : DecoderInv s)
    (h : Handles now s ev t) : DecoderInv t := by
  cases h with
  | startRejected | submitRejected | queryBusy | queryRefused | queryKept | ignored | settling | quiet
  | started | captured | matched | retried =>
    exact decoderInv_congr rfl rfl rfl rfl rfl rfl rfl hinv
  | gaveUp | closed | shortRead | reservedHeader => exact decoderInv_of_idle rfl
  | latched b u _ hb =>
    rcases fsByte_of_decoderInv b hinv with ⟨_, hb', ht⟩ | ⟨hb', -⟩ | ⟨_, _, hb', -⟩ <;>
      rw [hb] at hb' <;> cases hb'
    exact ht.inv
  | completed b i u t _ hb hexec =>
    rcases fsByte_of_decoderInv b hinv with ⟨_, hb', -⟩ | ⟨hb', -⟩ | ⟨_, _, hb', ht⟩ <;>
      rw [hb] at hb' <;> cases hb'
    exact exec_keeps_decoderInv hexec (decoderInv_of_idle ht.idle)

theorem sched_keeps_decoderInv (now : Nat) {s : State} (hinv : DecoderInv s) : DecoderInv (sched now s) := by
  obtain ⟨new, ka, lq, pq, mp, -, heq⟩ := sched_frame now s
  rw [heq]
  exact decoderInv_congr rfl rfl rfl rfl rfl rfl rfl hinv

/-- Settles O39: a received byte keeps the decoder at a position; everything else leaves its registers as
they are or puts it at a frame boundary. -/
theorem stepKeepsDecoderInv : Obligations.StepKeepsDecoderInv := by
  intro s s' hinv h
  refine step_keeps (P := DecoderInv) (fun s rest => ?inputs) (fun s c _ => ?cfg) (fun s => ?reset)
    (fun now s _ _ => ?activate) (fun now s ev t => handles_keeps_decoderInv)
    (fun now s _ => sched_keeps_decoderInv now) hinv h
  case inputs | cfg => exact decoderInv_congr rfl rfl rfl rfl rfl rfl rfl
  case reset | activate => exact decoderInv_of_idle rfl

/-! ### The session invariant -/

/-- `FsByte` writes the registers of the frame decoder alone and counts the byte (44_frame_decoder.md
R225). -/
theorem fsByte_frame {b : Byte} {s u : State} {r : FsResult} (h : fsByte b s = (r, u))
    (hrun : ∀ f, r ≠ .stuck f) : ∃ hdr sub buf len cnt acc st, u = { s with
      rxHdr := hdr, rxSub := sub, rxBuf := buf, rxLen := len, rxCnt := cnt, rxAcc := acc, rxState := st,
      rxPos := s.rxPos + 1 } := by
  rcases fsByte_cases b s with ⟨-, heq⟩ | ⟨-, heq⟩ | ⟨-, -, heq⟩ | ⟨-, -, heq⟩ | ⟨-, i, -, heq⟩ |
    ⟨-, -, heq⟩ <;> rw [heq] at h
  · rcases fsIdle_cases b s with ⟨-, hi⟩ | ⟨-, -, hi⟩ | ⟨-, -, hi⟩ <;>
      rw [hi] at h <;> cases h <;> exact ⟨_, _, _, _, _, _, _, rfl⟩
  · cases h
    exact ⟨_, _, _, _, _, _, _, rfl⟩
  · cases h
    exact ⟨_, _, _, _, _, _, _, rfl⟩
  · cases h
    exact absurd rfl (hrun _)
  · cases h
    exact ⟨_, _, _, _, _, _, _, rfl⟩
  · cases h
    exact absurd rfl (hrun _)

section
variable {s : State}

theorem sessionInv_of_active (hphase : s.phase = .active) (hcfg : WellFormedCfg s.tickNs s.cfg)
    (hmp : s.extHold.isSome = true → s.multipartPending = true)
    (hext : ∀ f, s.extHold = some f → f.cat = .cmd ∧ f.code = 6) : SessionInv s := by
  simp only [SessionInv, hphase, reduceCtorEq, ne_eq, not_true_eq_false, not_false_eq_true, false_implies,
    true_implies, true_and]
  exact ⟨hcfg, hmp, hext⟩

/-- The values of 10_state.md R55 and R56 meet the invariant. -/
theorem sessionInv_of_disconnected (hphase : s.phase = .disconnected) (hstep : s.hsStep = .capture)
    (hbuf : s.hsBuf = []) (hleft : s.hsLeft = 0) (hmp : s.multipartPending = false)
    (hq : s.pendingQuery = none) (hext : s.extHold = none) (hrx : s.rxState = .idle) : SessionInv s := by
  simp [SessionInv, hphase, hstep, hbuf, hleft, hmp, hq, hext, hrx]

theorem sessionInv_of_handshaking (hphase : s.phase = .handshaking) (hcfg : WellFormedCfg s.tickNs s.cfg)
    (hpos : 1 ≤ s.hsLeft) (hle : s.hsLeft ≤ s.cfg.hsAttempts)
    (hcap : s.hsStep = .capture → s.hsBuf.length < s.cfg.refBlob.length)
    (hset : s.hsStep = .settle → s.hsBuf = []) (hmp : s.multipartPending = false)
    (hq : s.pendingQuery = none) (hext : s.extHold = none) (hrx : s.rxState = .idle) : SessionInv s := by
  refine ⟨fun _ => hcfg, ?_, fun _ => ⟨hpos, hle, hcap, hset⟩, fun _ => ⟨hmp, hq, hext, hrx⟩, ?_, ?_⟩ <;>
    simp [hphase, hext]

theorem sessionInv_fatal (c : Condition) : SessionInv (fatal c s) :=
  sessionInv_of_disconnected rfl rfl rfl rfl rfl rfl rfl rfl

end

/-- In `Active` the decoder and the outputs are no part of the invariant. -/
theorem sessionInv_of_active_eq {s t : State} (hinv : SessionInv s) (hs : s.phase = .active)
    (hphase : t.phase = s.phase) (htick : t.tickNs = s.tickNs) (hcfg : t.cfg = s.cfg)
    (hext : t.extHold = s.extHold) (hmp : t.multipartPending = s.multipartPending) : SessionInv t := by
  obtain ⟨hwf, -, -, -, hpending, hheld⟩ := hinv
  refine sessionInv_of_active (hphase.trans hs) ?_ ?_ ?_
  · rw [htick, hcfg]
    exact hwf (by simp [hs])
  · rwa [hext, hmp]
  · rwa [hext]

theorem exec_keeps_sessionInv {i : Instr} {s t : State} (h : exec i s = .next t) (hs : s.phase = .active)
    (hinv : SessionInv s) : SessionInv t := by
  obtain ⟨hwf, -, -, -, -, -⟩ := hinv
  have hcfg := hwf (by simp [hs])
  obtain ⟨f, reports, -, ⟨-, hcat, hcode, rfl⟩ | rfl⟩ := exec_cases h
  · refine sessionInv_of_active hs hcfg (fun _ => rfl) fun g hg => ?_
    cases hg
    exact ⟨hcat, hcode⟩
  · exact sessionInv_of_active hs hcfg (by simp [delivered]) (by simp [delivered])

theorem handles_keeps_sessionInv {now : Nat} {s t : State} {ev : Event} (hinv : SessionInv s)
    (h : Handles now s ev t) : SessionInv t := by
  have hinv' := hinv
  obtain ⟨hwf, hdisc, hhand, hout, hpending, hheld⟩ := hinv'
  cases h with
  | startRejected | submitRejected | queryBusy | queryRefused | ignored | settling | quiet => exact hinv
  | queryKept q eq hphase => exact sessionInv_of_active_eq hinv hphase rfl rfl rfl rfl rfl
  | started hphase hcfg =>
    obtain ⟨hblob, hattempts, -⟩ := id hcfg
    obtain ⟨hmp, hq, hext, hrx⟩ := hout (by simp [hphase])
    exact sessionInv_of_handshaking rfl hcfg hattempts le_rfl (fun _ => hblob) nofun hmp hq hext hrx
  | captured b hphase hstep hlen =>
    obtain ⟨hpos, hle, hshort, -⟩ := hhand hphase
    obtain ⟨hmp, hq, hext, hrx⟩ := hout (by simp [hphase])
    refine sessionInv_of_handshaking hphase (hwf (by simp [hphase])) hpos hle (fun _ => ?_)
      (fun hset => ?_) hmp hq hext hrx
    · have hshort := hshort hstep
      simp only [List.length_append, List.length_singleton] at hlen ⊢
      omega
    · rw [hstep] at hset
      cases hset
  | matched b hphase hstep hblob =>
    obtain ⟨hpos, hle, -, -⟩ := hhand hphase
    obtain ⟨hmp, hq, hext, hrx⟩ := hout (by simp [hphase])
    exact sessionInv_of_handshaking hphase (hwf (by simp [hphase])) hpos hle nofun (fun _ => rfl) hmp hq
      hext hrx
  | retried _ hphase hstep hfail hleft =>
    obtain ⟨hpos, hle, hshort, -⟩ := hhand hphase
    obtain ⟨hmp, hq, hext, hrx⟩ := hout (by simp [hphase])
    exact sessionInv_of_handshaking hphase (hwf (by simp [hphase])) (Nat.le_sub_one_of_lt hleft)
      ((Nat.sub_le _ _).trans hle) (fun _ => Nat.zero_lt_of_lt (hshort hstep)) (fun _ => rfl) hmp hq hext hrx
  | gaveUp | closed | shortRead | reservedHeader => exact sessionInv_fatal _
  | latched b u hphase hb =>
    obtain ⟨_, _, _, _, _, _, _, rfl⟩ := fsByte_frame hb nofun
    exact sessionInv_of_active_eq hinv hphase rfl rfl rfl rfl rfl
  | completed b i u t hphase hb hexec =>
    obtain ⟨_, _, _, _, _, _, _, rfl⟩ := fsByte_frame hb nofun
    exact exec_keeps_sessionInv hexec hphase (sessionInv_of_active_eq hinv hphase rfl rfl rfl rfl rfl)

/-- A query leaves only while nothing is pending, so while no frame is held. -/
theorem sched_keeps_sessionInv (now : Nat) {s : State} (hphase : s.phase = .active) (hinv : SessionInv s) :
    SessionInv (sched now s) := by
  have hka : (keepAlive now s).phase = .active ∧ SessionInv (keepAlive now s) := by
    rcases keepAlive_cases now s with ⟨-, heq⟩ | ⟨-, heq⟩ <;> rw [heq]
    · exact ⟨hphase, sessionInv_of_active_eq hinv hphase rfl rfl rfl rfl rfl⟩
    · exact ⟨hphase, hinv⟩
  obtain ⟨hphase, hinv⟩ := hka
  rw [sched]
  rcases sendQuery_cases now (keepAlive now s) with ⟨q, -, hmp, -, heq⟩ | ⟨-, heq⟩ <;> rw [heq]
  · obtain ⟨hwf, -, -, -, hpending, hheld⟩ := hinv
    refine sessionInv_of_active hphase (hwf (by simp [hphase])) (fun hsome => ?_) hheld
    rw [hpending hsome] at hmp
    cases hmp
  · exact hinv

/-- Settles O40: the handlers keep the registers as their phase has them, and a fatal entry, a reset and an
activation set them. -/
theorem stepKeepsSessionInv : Obligations.StepKeepsSessionInv := by
  intro s s' hinv h
  refine step_keeps (P := SessionInv) (fun s rest hs => hs) (fun s c hphase hs => ?cfg) (fun s => ?reset)
    (fun now s hphase hs => ?activate) (fun now s ev t => handles_keeps_sessionInv)
    (fun now s hphase => sched_keeps_sessionInv now hphase) hinv h
  case cfg =>
    obtain ⟨-, hdisc, -, hout, -, -⟩ := hs
    obtain ⟨hstep, hbuf, hleft⟩ := hdisc hphase
    obtain ⟨hmp, hq, hext, hrx⟩ := hout (by simp [hphase])
    exact sessionInv_of_disconnected hphase hstep hbuf hleft hmp hq hext hrx
  case reset => exact sessionInv_of_disconnected rfl rfl rfl rfl rfl rfl rfl rfl
  case activate =>
    obtain ⟨hwf, -, -, -, -, -⟩ := hs
    exact sessionInv_of_active rfl (hwf (by simp [hphase])) (by simp) (by simp)

end Sys2Proof.Machine

/-! SUPPORT. A step against the registers that hold no defined value, and its outcomes from a decoder
position (10_state.md R27, 70_reset_and_hazards.md R382). -/

namespace Sys2Proof.Machine

open Sys2Proof.Safety (NextEvent WellFormedCfg DecoderInv SameToHost)

/-! ### The registers that hold no defined value -/

/-- Values for the registers that may hold no defined value, for `active_baud` and for the count of free
values. -/
structure Undefined where
  keepaliveTime : Nat
  queryTime : Nat
  deadline : Nat
  baud : Nat
  hdr : Byte
  sub : Byte
  buf : Vector Byte 32
  len : BitVec 6
  free : Nat

/-- The state with these values in those registers. -/
def State.withUndefined (s : State) (u : Undefined) : State :=
  { s with
    lastKeepaliveTime := u.keepaliveTime
    lastQueryTime := u.queryTime
    settleDeadline := u.deadline
    activeBaud := u.baud
    rxHdr := u.hdr
    rxSub := u.sub
    rxBuf := u.buf
    rxLen := u.len
    freeCount := u.free }

/-- The values are those of the state in every register that holds a defined value in it. -/
def AgreesOnDefined (s : State) (u : Undefined) : Prop :=
  (s.phase = .active → s.lastKeepaliveTime = u.keepaliveTime ∧ s.lastQueryTime = u.queryTime) ∧
  (s.phase = .handshaking → s.hsStep = .settle → s.settleDeadline = u.deadline) ∧
  (s.rxState ≠ .idle → s.rxHdr = u.hdr ∧ s.rxLen = u.len) ∧
  (s.rxState = .pay ∨ s.rxState = .chk →
    (categoryOf s.rxHdr = .info → s.rxSub = u.sub) ∧
    s.rxBuf.toList.take s.rxCnt.toNat = u.buf.toList.take s.rxCnt.toNat)

/-- Two states a host cannot tell apart differ in those registers alone. -/
theorem sameToHost_iff (a b : State) :
    SameToHost a b ↔ ∃ u, b = a.withUndefined u ∧ AgreesOnDefined a u := by
  constructor
  · rintro ⟨⟨hphase, hmp, hstep, hbuf, hleft, hq, hext⟩, ⟨hpos, hst, hcnt, hacc⟩,
      ⟨hcfg, htick, hin, hout⟩, hdefined⟩
    refine ⟨⟨b.lastKeepaliveTime, b.lastQueryTime, b.settleDeadline, b.activeBaud, b.rxHdr, b.rxSub,
      b.rxBuf, b.rxLen, b.freeCount⟩, ?_, hdefined⟩
    rw [State.withUndefined, hphase, hmp, hstep, hbuf, hleft, hq, hext, hpos, hst, hcnt, hacc, hcfg,
      htick, hin, hout]
  · rintro ⟨u, rfl, hdefined⟩
    exact ⟨⟨rfl, rfl, rfl, rfl, rfl, rfl, rfl⟩, ⟨rfl, rfl, rfl, rfl⟩, ⟨rfl, rfl, rfl, rfl⟩, hdefined⟩

/-- Outside `Active` and the settle delay, at a frame boundary, no register has to agree. -/
theorem agreesOnDefined_of_disconnected {s : State} (u : Undefined) (hphase : s.phase = .disconnected)
    (hidle : s.rxState = .idle) : AgreesOnDefined s u := by
  simp [AgreesOnDefined, hphase, hidle]

/-! ### The frame decoder -/

/-- At a frame boundary the decoder's registers need not agree. -/
theorem agreesOnDefined_of_idle {s t : State} {u v : Undefined} (h : AgreesOnDefined s u)
    (hphase : t.phase = s.phase) (hka : t.lastKeepaliveTime = s.lastKeepaliveTime)
    (hlq : t.lastQueryTime = s.lastQueryTime) (hstep : t.hsStep = s.hsStep)
    (hdl : t.settleDeadline = s.settleDeadline) (hidle : t.rxState = .idle)
    (hvka : v.keepaliveTime = u.keepaliveTime) (hvlq : v.queryTime = u.queryTime)
    (hvdl : v.deadline = u.deadline) : AgreesOnDefined t v := by
  obtain ⟨htimes, hdeadline, -, -⟩ := h
  refine ⟨?_, ?_, ?_, ?_⟩
  · rwa [hphase, hka, hlq, hvka, hvlq]
  · rwa [hphase, hstep, hdl, hvdl]
  · simp [hidle]
  · simp [hidle]

/-- The checksum byte sees the registers that hold defined values (44_frame_decoder.md R229). -/
theorem heldFrame_withUndefined {s : State} {u : Undefined} (b : Byte) (hst : s.rxState = .chk)
    (hcnt : s.rxCnt = s.rxLen) (h : AgreesOnDefined s u) :
    heldFrame (s.withUndefined u) b = heldFrame s b := by
  obtain ⟨-, -, hheader, hpay⟩ := h
  obtain ⟨hhdr, hlen⟩ := hheader (by simp [hst])
  obtain ⟨hsub, hbuf⟩ := hpay (.inr hst)
  have hpayload : (s.withUndefined u).payload = s.payload := by
    simp only [State.payload, State.withUndefined, ← hlen, ← hcnt, hbuf]
  by_cases hinfo : categoryOf s.rxHdr = .info
  · simp [heldFrame, State.withUndefined, ← hhdr, hinfo, ← hsub hinfo, ← hpayload]
  · simp [heldFrame, State.withUndefined, ← hhdr, hinfo, ← hpayload]

theorem latchPayload_withUndefined (b : Byte) {s : State} {u : Undefined} (hlen : u.len = s.rxLen) :
    latchPayload b (takeByte (s.withUndefined u)) =
      (latchPayload b (takeByte s)).withUndefined { u with buf := u.buf.setIfInBounds s.rxCnt.toNat b } := by
  obtain ⟨ka, lq, dl, baud, hdr, sub, buf, len, free⟩ := u
  subst hlen
  rfl

/-- A byte does the same to both: the decoder reads no register without a defined value. -/
theorem fsByte_withUndefined {s : State} {u : Undefined} (b : Byte) (hinv : DecoderInv s)
    (h : AgreesOnDefined s u) : ∃ v,
      fsByte b (s.withUndefined u) = ((fsByte b s).1, (fsByte b s).2.withUndefined v) ∧
        AgreesOnDefined (fsByte b s).2 v := by
  have h' := h
  obtain ⟨htimes, hdeadline, hheader, hpay⟩ := h'
  cases hst : s.rxState with
  | idle =>
    by_cases hcat : categoryOf b = .sys
    · rw [fsByte_of_sys (s := s.withUndefined u) hst hcat, fsByte_of_sys hst hcat]
      exact ⟨u, rfl, h⟩
    by_cases hsc : (sizeField b).toNat < 6
    · rw [fsByte_of_framed (s := s.withUndefined u) hst hcat hsc, fsByte_of_framed hst hcat hsc]
      refine ⟨{ u with hdr := b, len := 1#6 <<< (sizeField b).toNat }, rfl, htimes, hdeadline,
        fun _ => ⟨rfl, rfl⟩, fun hbody => ⟨fun hinfo => ?_, rfl⟩⟩
      have hinfo : categoryOf b = .info := hinfo
      simp [hinfo] at hbody
    · have hsc := Nat.not_lt.1 hsc
      rw [fsByte_of_reserved (s := s.withUndefined u) hst hcat hsc, fsByte_of_reserved hst hcat hsc]
      exact ⟨u, rfl, h⟩
  | sub =>
    rw [fsByte_of_sub b (s := s.withUndefined u) hst, fsByte_of_sub b hst]
    obtain ⟨-, -, hcnt⟩ := (decoderInv_iff_of_sub hst).1 hinv
    exact ⟨{ u with sub := b }, rfl, htimes, hdeadline, fun _ => hheader (by simp [hst]),
      fun _ => ⟨fun _ => rfl, by simp [hcnt]⟩⟩
  | pay =>
    obtain ⟨hmid, hcnt⟩ := (decoderInv_iff_of_pay hst).1 hinv
    have hcnt := hcnt.trans_le (toNat_rxLen_le hmid)
    obtain ⟨hhdr, hlen⟩ := hheader (by simp [hst])
    obtain ⟨hsub, hbuf⟩ := hpay (.inl hst)
    rw [fsByte_of_pay b (s := s.withUndefined u) hst hcnt, fsByte_of_pay b hst hcnt]
    rw [latchPayload_withUndefined b hlen.symm]
    refine ⟨_, rfl, htimes, hdeadline, fun _ => ⟨hhdr, hlen⟩, fun _ => ⟨hsub, ?_⟩⟩
    have hnext : (s.rxCnt + 1).toNat = s.rxCnt.toNat + 1 := by bv_omega
    simp only [latchPayload_rxBuf, latchPayload_rxCnt, takeByte_rxBuf, takeByte_rxCnt, hnext,
      take_setIfInBounds _ b hcnt, hbuf]
  | chk =>
    have hdone := completesFrame_chk b hst hinv
    obtain ⟨-, hcnt⟩ := (decoderInv_iff_of_chk hst).1 hinv
    have hdec := decode_bytes hdone.wellFormed
    have hbytes : s.frameBytes b = (heldFrame s b).bytes := frameBytes_of_chk b hst
    have hbytes' : (s.withUndefined u).frameBytes b = (heldFrame s b).bytes := by
      rw [frameBytes_of_chk (s := s.withUndefined u) b hst, heldFrame_withUndefined b hst hcnt h]
    rw [fsByte_of_chk (s := s.withUndefined u) hst (hbytes' ▸ hdec), fsByte_of_chk hst (hbytes ▸ hdec)]
    exact ⟨u, rfl, agreesOnDefined_of_idle h rfl rfl rfl rfl rfl rfl rfl rfl rfl⟩

/-- The instruction of a completed frame is well-formed. -/
theorem wf_of_complete {b : Byte} {s t : State} {i : Instr} (hinv : DecoderInv s)
    (hb : fsByte b s = (.complete i, t)) : i.wf = true := by
  rcases fsByte_of_decoderInv b hinv with ⟨_, hb', -⟩ | ⟨hb', -⟩ | ⟨raw, _, hb', ht⟩ <;>
    rw [hb] at hb' <;> cases hb'
  exact wf_instrOf ht.wellFormed

theorem onFrame_withUndefined (f : Frame) (s : State) (u : Undefined) :
    onFrame f (s.withUndefined u) = (onFrame f s).withUndefined u := by
  by_cases hold : s.extHold = none ∧ isExtMode f = true
  · have hold' : (s.withUndefined u).extHold = none ∧ isExtMode f = true := hold
    rw [onFrame, onFrame, if_pos hold, if_pos hold']
    rfl
  · have hold' : ¬ ((s.withUndefined u).extHold = none ∧ isExtMode f = true) := hold
    rw [onFrame, onFrame, if_neg hold, if_neg hold']
    rfl

theorem reportChecksum_withUndefined (f : Frame) (s : State) (u : Undefined) :
    reportChecksum f (s.withUndefined u) = (reportChecksum f s).withUndefined u := by
  unfold reportChecksum
  split <;> rfl

/-- A well-formed instruction reads no register without a defined value. -/
theorem exec_withUndefined {i : Instr} {s t : State} {u : Undefined} (hwf : i.wf = true)
    (hexec : exec i s = .next t) (h : AgreesOnDefined s u) :
    exec i (s.withUndefined u) = .next (t.withUndefined u) ∧ AgreesOnDefined t u := by
  constructor
  · rw [exec_eq_receive s hwf] at hexec
    rw [exec_eq_receive _ hwf]
    cases hexec
    exact congrArg _ ((congrArg _ (reportChecksum_withUndefined ..)).trans (onFrame_withUndefined ..))
  · obtain ⟨_, _, _, rfl⟩ := exec_frame i s t hexec
    exact h

/-! ### The handlers -/

/-- The free values of a fatal entry of a state with these values (notes/assumptions/7.md). -/
def Undefined.fatal (u : Undefined) : Undefined :=
  { u with
    hdr := Config.freeRxHdr u.free
    sub := Config.freeRxSub u.free
    len := Config.freeRxLen u.free
    buf := Config.freeRxBuf u.free
    free := u.free + 1 }

theorem fatal_withUndefined (c : Condition) (s : State) (u : Undefined) :
    Machine.fatal c (s.withUndefined u) = (Machine.fatal c s).withUndefined u.fatal := rfl

theorem agreesOnDefined_fatal (c : Condition) (s : State) (u : Undefined) :
    AgreesOnDefined (fatal c s) u := agreesOnDefined_of_disconnected u rfl rfl

/-- A handler does the same to both. -/
theorem handles_withUndefined {now : Nat} {s t : State} {ev : Event} {u : Undefined}
    (hinv : DecoderInv s) (hu : AgreesOnDefined s u) (h : Handles now s ev t) :
    ∃ v, Handles now (s.withUndefined u) ev (t.withUndefined v) ∧ AgreesOnDefined t v := by
  cases h with
  | startRejected hphase => exact ⟨u, .startRejected hphase, hu⟩
  | submitRejected q hphase => exact ⟨u, .submitRejected q hphase, hu⟩
  | queryBusy q hphase hbusy => exact ⟨u, .queryBusy q hphase hbusy, hu⟩
  | queryRefused q c hphase hfree henc => exact ⟨u, .queryRefused q c hphase hfree henc, hu⟩
  | queryKept q eq hphase hfree henc => exact ⟨u, .queryKept q eq hphase hfree henc, hu⟩
  | ignored _ hphase hev => exact ⟨u, .ignored ev hphase hev, hu⟩
  | settling _ hphase hstep hev => exact ⟨u, .settling ev hphase hstep hev, hu⟩
  | quiet hphase hidle => exact ⟨u, .quiet hphase hidle, hu⟩
  | started hphase hcfg =>
    obtain ⟨-, -, hheader, hpay⟩ := hu
    exact ⟨{ u with baud := s.cfg.handshakeBaud }, .started hphase hcfg, nofun, nofun, hheader, hpay⟩
  | captured b hphase hstep hlen => exact ⟨u, .captured b hphase hstep hlen, hu⟩
  | matched b hphase hstep hblob =>
    obtain ⟨htimes, -, hheader, hpay⟩ := hu
    exact ⟨{ u with deadline := now + s.cfg.settleDelay }, .matched b hphase hstep hblob, htimes,
      fun _ _ => rfl, hheader, hpay⟩
  | retried _ hphase hstep hfail hleft => exact ⟨u, .retried ev hphase hstep hfail hleft, hu⟩
  | gaveUp _ hphase hstep hfail hleft =>
    exact ⟨u.fatal, .gaveUp ev hphase hstep hfail hleft, agreesOnDefined_fatal ..⟩
  | closed hphase => exact ⟨u.fatal, .closed hphase, agreesOnDefined_fatal ..⟩
  | shortRead hphase hinside => exact ⟨u.fatal, .shortRead hphase hinside, agreesOnDefined_fatal ..⟩
  | reservedHeader b hdr w hphase hb =>
    obtain ⟨v, hb', -⟩ := fsByte_withUndefined b hinv hu
    rw [hb] at hb'
    exact ⟨v.fatal, .reservedHeader (s := s.withUndefined u) b hdr (w.withUndefined v) hphase hb',
      agreesOnDefined_fatal ..⟩
  | latched b w hphase hb =>
    obtain ⟨v, hb', hv⟩ := fsByte_withUndefined b hinv hu
    rw [hb] at hb' hv
    exact ⟨v, .latched b _ hphase hb', hv⟩
  | completed b i w t hphase hb hexec =>
    obtain ⟨v, hb', hv⟩ := fsByte_withUndefined b hinv hu
    rw [hb] at hb' hv
    obtain ⟨hexec', ht⟩ := exec_withUndefined (wf_of_complete hinv hb) hexec hv
    exact ⟨v, .completed b i _ _ hphase hb' hexec', ht⟩

/-! ### The settle test and the scheduler -/

theorem settleTest_withUndefined {s : State} {u : Undefined} (now : Nat) (hu : AgreesOnDefined s u) :
    ∃ v, settleTest now (s.withUndefined u) = (settleTest now s).withUndefined v ∧
      AgreesOnDefined (settleTest now s) v := by
  have hu' := hu
  obtain ⟨-, hdeadline, -, -⟩ := hu'
  rcases settleTest_cases now s with ⟨hphase, hstep, hdue, heq⟩ | ⟨hnot, heq⟩ <;> rw [heq]
  · have hdue' : u.deadline ≤ now := hdeadline hphase hstep ▸ hdue
    rw [settleTest_of_due (s := s.withUndefined u) hphase hstep hdue']
    exact ⟨{ u with keepaliveTime := now, queryTime := now, baud := s.cfg.productionBaud }, rfl,
      fun _ => ⟨rfl, rfl⟩, nofun, fun hne => absurd rfl hne, fun hbody => by simp at hbody⟩
  · refine ⟨u, if_neg fun hdue => hnot ?_, hu⟩
    obtain ⟨hphase, hstep, hdue⟩ := hdue
    exact ⟨hphase, hstep, hdeadline hphase hstep ▸ hdue⟩

theorem keepAlive_withUndefined {s : State} {u : Undefined} (now : Nat) (hphase : s.phase = .active)
    (hu : AgreesOnDefined s u) : ∃ v, keepAlive now (s.withUndefined u) = (keepAlive now s).withUndefined v ∧
      AgreesOnDefined (keepAlive now s) v := by
  have hu' := hu
  obtain ⟨htimes, hrest⟩ := hu'
  obtain ⟨hka, hlq⟩ := htimes hphase
  rcases keepAlive_cases now s with ⟨hdue, heq⟩ | ⟨hearly, heq⟩ <;> rw [heq]
  · rw [hka] at hdue
    rw [keepAlive_of_due (s := s.withUndefined u) hdue]
    exact ⟨{ u with keepaliveTime := now }, rfl, fun _ => ⟨rfl, hlq⟩, hrest⟩
  · rw [hka] at hearly
    exact ⟨u, keepAlive_of_not_due (s := s.withUndefined u) hearly, hu⟩

theorem sendQuery_withUndefined {s : State} {u : Undefined} (now : Nat) (hphase : s.phase = .active)
    (hu : AgreesOnDefined s u) : ∃ v, sendQuery now (s.withUndefined u) = (sendQuery now s).withUndefined v ∧
      AgreesOnDefined (sendQuery now s) v := by
  have hu' := hu
  obtain ⟨htimes, hrest⟩ := hu'
  obtain ⟨hka, hlq⟩ := htimes hphase
  rcases sendQuery_cases now s with ⟨q, hq, hmp, hdue, heq⟩ | ⟨hwait, heq⟩ <;> rw [heq]
  · rw [hlq] at hdue
    rw [sendQuery_of_ready (s := s.withUndefined u) hq hmp hdue]
    exact ⟨{ u with queryTime := now }, rfl, fun _ => ⟨hka, rfl⟩, hrest⟩
  · rw [hlq] at hwait
    exact ⟨u, sendQuery_of_waits (s := s.withUndefined u) hwait, hu⟩

theorem phase_keepAlive (now : Nat) (s : State) : (keepAlive now s).phase = s.phase := by
  rcases keepAlive_cases now s with ⟨-, heq⟩ | ⟨-, heq⟩ <;> rw [heq]

theorem schedActive_withUndefined {s : State} {u : Undefined} (now : Nat) (hu : AgreesOnDefined s u) :
    ∃ v, schedActive now (s.withUndefined u) = (schedActive now s).withUndefined v ∧
      AgreesOnDefined (schedActive now s) v := by
  by_cases hphase : s.phase = .active
  · have hphase' : (s.withUndefined u).phase = .active := hphase
    rw [schedActive, schedActive, if_pos hphase, if_pos hphase', sched, sched]
    obtain ⟨v, hka, hv⟩ := keepAlive_withUndefined now hphase hu
    rw [hka]
    exact sendQuery_withUndefined now ((phase_keepAlive now s).trans hphase) hv
  · have hphase' : (s.withUndefined u).phase ≠ .active := hphase
    rw [schedActive, schedActive, if_neg hphase, if_neg hphase']
    exact ⟨u, rfl, hu⟩

/-! ### One step -/

/-- The settle test, the handler and the scheduler in turn (46_session.md R282). -/
theorem step_of_handles {s t : State} {ev : Event} {now : Nat} {rest : List Input}
    (hev : NextEvent s ev now rest) (hreset : ev ≠ .reset)
    (h : Handles now (settleTest now { s with inputs := rest }) ev t) :
    step s = .next (schedActive now t) := by
  rw [step_of_nextEvent hev, stepEvent, if_neg hreset, handleEvent_of_handles h, schedIfActive_next]

theorem step_of_reset {s : State} {now : Nat} {rest : List Input} (hev : NextEvent s .reset now rest) :
    step s = .next (resetRegisters { s with inputs := rest }) := by
  rw [step_of_nextEvent hev, stepEvent, if_pos rfl]

theorem step_of_no_input {s : State} (h : s.inputs = []) : step s = .next s := by
  simp only [step, stepInput, h]

theorem step_of_configure {s : State} {c : Cfg} {rest : List Input}
    (h : s.inputs = .configure c :: rest) :
    (s.phase = .disconnected → step s = .next { s with inputs := rest, cfg := c }) ∧
    (s.phase ≠ .disconnected → step s = .refused .configInSession) := by
  simp only [step, stepInput, h, configure]
  exact ⟨fun hphase => if_pos hphase, fun hphase => if_neg hphase⟩

theorem settleTest_keeps_decoderInv (now : Nat) {s : State} (hinv : DecoderInv s) :
    DecoderInv (settleTest now s) := by
  rcases settleTest_cases now s with ⟨-, -, -, heq⟩ | ⟨-, heq⟩ <;> rw [heq]
  · exact decoderInv_of_idle rfl
  · exact hinv

/-- The values in those registers after a reset of a state with the values `u` (notes/assumptions/6.md). -/
def Undefined.reset (u : Undefined) : Undefined where
  keepaliveTime := Config.freeLastKeepaliveTime u.free
  queryTime := Config.freeLastQueryTime u.free
  deadline := Config.freeSettleDeadline u.free
  baud := Config.freeActiveBaud u.free
  hdr := Config.freeRxHdr u.free
  sub := Config.freeRxSub u.free
  buf := Config.freeRxBuf u.free
  len := Config.freeRxLen u.free
  free := u.free + 1

/-- Settles O42: the two states differ in registers without a defined value alone, and every part of a step
reads none of them. -/
theorem undefinedRegistersReachNoOutput : Obligations.UndefinedRegistersReachNoOutput := by
  intro a b a' hinv hsame h
  obtain ⟨u, rfl, hu⟩ := (sameToHost_iff a b).1 hsame
  suffices hstep : ∃ v, step (a.withUndefined u) = .next (a'.withUndefined v) ∧ AgreesOnDefined a' v by
    obtain ⟨v, hnext, hv⟩ := hstep
    exact ⟨_, hnext, (sameToHost_iff _ _).2 ⟨v, rfl, hv⟩⟩
  rcases step_handles h with ⟨hin, rfl⟩ | ⟨c, rest, hin, hphase, rfl⟩ | ⟨now, rest, hev, rfl⟩ |
    ⟨ev, now, rest, t, hev, hreset, ht, rfl⟩
  · exact ⟨u, step_of_no_input hin, hu⟩
  · obtain ⟨hwrite, -⟩ := step_of_configure (s := a.withUndefined u) hin
    exact ⟨u, hwrite hphase, hu⟩
  · exact ⟨u.reset, step_of_reset (s := a.withUndefined u) hev, agreesOnDefined_of_disconnected _ rfl rfl⟩
  · have hu' : AgreesOnDefined { a with inputs := rest } u := hu
    have hinv' : DecoderInv { a with inputs := rest } := hinv
    obtain ⟨v, hsettle, hv⟩ := settleTest_withUndefined now hu'
    obtain ⟨w, hhandle, hw⟩ := handles_withUndefined (settleTest_keeps_decoderInv now hinv') hv ht
    obtain ⟨x, hsched, hx⟩ := schedActive_withUndefined now hw
    refine ⟨x, ?_, hx⟩
    rw [← hsched]
    exact step_of_handles (s := a.withUndefined u) hev hreset (hsettle ▸ hhandle)

/-! ### A step never faults from a decoder position -/

theorem exec_completes (i : Instr) (s : State) : ∃ t, exec i s = .next t := by
  obtain ⟨f, h⟩ := exec_next i s
  exact ⟨_, h⟩

theorem handles_rx_of_active {now : Nat} {s : State} (b : Byte) (hinv : DecoderInv s)
    (hphase : s.phase = .active) : ∃ t, Handles now s (.rx b) t := by
  rcases fsByte_of_decoderInv b hinv with ⟨t, hb, -⟩ | ⟨hb, -⟩ | ⟨raw, u, hb, -⟩
  · exact ⟨t, .latched b t hphase hb⟩
  · exact ⟨_, .reservedHeader b b _ hphase hb⟩
  · obtain ⟨t, hexec⟩ := exec_completes (instrOf raw) u
    exact ⟨t, .completed b _ u t hphase hb hexec⟩

/-- From a decoder position a handler answers, but for a start with an ill-formed configuration. -/
theorem handles_or_illFormedConfig {now : Nat} {s : State} {ev : Event} (hreset : ev ≠ .reset)
    (hinv : DecoderInv s) : (∃ t, Handles now s ev t) ∨
      (ev = .start ∧ s.phase = .disconnected ∧ ¬ WellFormedCfg s.tickNs s.cfg) := by
  have hanswers {t : State} (h : handleEvent ev now s = .next t) : ∃ t, Handles now s ev t :=
    ⟨t, handles_of_handleEvent hreset h⟩
  cases hphase : s.phase with
  | disconnected =>
    rw [handleEvent_of_disconnected hphase] at hanswers
    cases ev with
    | reset => exact absurd rfl hreset
    | start =>
      rcases startSession_cases s with ⟨-, heq⟩ | ⟨hbad, -⟩
      · exact .inl (hanswers heq)
      · exact .inr ⟨rfl, rfl, hbad⟩
    | rx | idle | closed | submit => exact .inl (hanswers rfl)
  | handshaking =>
    rw [handleEvent_of_handshaking hphase] at hanswers
    cases ev with
    | reset => exact absurd rfl hreset
    | start | rx | idle | closed | submit => exact .inl (hanswers rfl)
  | active =>
    rw [handleEvent_of_active hphase] at hanswers
    cases ev with
    | reset => exact absurd rfl hreset
    | rx b => exact .inl (handles_rx_of_active b hinv hphase)
    | start | idle | closed | submit => exact .inl (hanswers rfl)

/-- Settles O41: each input is taken, or is the start or the write that the model refuses. -/
theorem stepCompletesOrRefusesConfig : Obligations.StepCompletesOrRefusesConfig := by
  intro s hinv
  cases hin : s.inputs with
  | nil => exact .inl ⟨s, step_of_no_input hin⟩
  | cons input rest =>
    cases input with
    | configure c =>
      obtain ⟨hwrite, hrefuse⟩ := step_of_configure hin
      by_cases hphase : s.phase = .disconnected
      · exact .inl ⟨_, hwrite hphase⟩
      · exact .inr (.inr ⟨hrefuse hphase, hphase, c, rest, rfl⟩)
    | event ev now =>
      by_cases hreset : ev = .reset
      · subst hreset
        exact .inl ⟨_, step_of_reset hin⟩
      have hinv' : DecoderInv (settleTest now { s with inputs := rest }) :=
        settleTest_keeps_decoderInv now hinv
      rcases handles_or_illFormedConfig (now := now) hreset hinv' with ⟨t, ht⟩ | ⟨rfl, hphase, hbad⟩
      · exact .inl ⟨_, step_of_handles hin hreset ht⟩
      · rcases settleTest_cases now { s with inputs := rest } with ⟨-, -, -, heq⟩ | ⟨-, heq⟩ <;>
          rw [heq] at hphase hbad
        · cases hphase
        · have hstart : step s = .refused .illFormedConfig := by
            rw [step_of_nextEvent hin, stepEvent_of_disconnected now hreset hphase, handleDisconnected]
            rcases startSession_cases { s with inputs := rest } with ⟨hcfg, -⟩ | ⟨-, hrefused⟩
            · exact absurd hcfg hbad
            · rw [hrefused, schedIfActive]
          exact .inr (.inl ⟨hstart, hphase, hbad, now, rest, hin⟩)

end Sys2Proof.Machine

/-! SUPPORT. What a step puts out and which registers it moves: the actions of the settle test, the handler
and the scheduler, one after the other (46_session.md R282, 60_exceptions.md R331 to R358). -/

namespace Sys2Proof.Machine

open Sys2Proof.Safety

/-! ### The conditions of the builders -/

/-- A build that fails does so with a reject (60_exceptions.md R332). -/
def RefusesWithReject {α : Type} (r : Except Condition α) : Prop := ∀ c, r = .error c → classOf c = .reject

theorem refuses_ok {α : Type} (a : α) : RefusesWithReject (.ok a : Except Condition α) := nofun

theorem refuses_error {α : Type} {c : Condition} (hc : classOf c = .reject) :
    RefusesWithReject (.error c : Except Condition α) := by
  rintro _ ⟨⟩
  exact hc

theorem refuses_require {α : Type} (ok : Bool) {c : Condition} {k : Except Condition α}
    (hc : classOf c = .reject) (hk : RefusesWithReject k) : RefusesWithReject (require ok c k) := by
  intro e he
  rcases require_error ok c k e he with rfl | hke
  · exact hc
  · exact hk e hke

theorem refuses_encodeHeader (cat : Category) (m len : Nat) : RefusesWithReject (encodeHeader cat m len) := by
  refine refuses_require _ rfl (refuses_require _ rfl ?_)
  split
  · exact refuses_ok _
  · exact refuses_error rfl

theorem refuses_buildFrame (t : FrameTarget) (p : List Byte) : RefusesWithReject (buildFrame t p) := by
  refine refuses_require _ rfl ?_
  split
  · exact refuses_error (refuses_encodeHeader _ _ _ _ ‹_›)
  · exact refuses_ok _

theorem refuses_buildPlain (t : FrameTarget) (p : List Byte) : RefusesWithReject (buildPlain t p) := by
  unfold buildPlain
  split
  · exact refuses_error (refuses_buildFrame _ _ _ ‹_›)
  · exact refuses_ok _

theorem refuses_encodeText (text : List Byte) (flags : Option (List Byte)) :
    RefusesWithReject (encodeText text flags) := by
  refine refuses_require _ rfl ?_
  split
  · exact refuses_require _ rfl (refuses_ok _)
  · exact refuses_require _ rfl (refuses_require _ rfl (refuses_ok _))

theorem refuses_buildText (id : Byte) (mode : Nat) (text : List Byte) (flags : Option (List Byte)) :
    RefusesWithReject (buildText id mode text flags) := by
  refine refuses_require _ rfl ?_
  split
  · exact refuses_error (refuses_encodeText _ _ _ ‹_›)
  · exact refuses_buildPlain _ _

theorem refuses_buildInfoMapping (mode : Nat) (input output : Option FlagArg) :
    RefusesWithReject (buildInfoMapping mode input output) := by
  refine refuses_require _ rfl ?_
  split
  · split
    · exact refuses_error (refuses_buildFrame _ _ _ ‹_›)
    · exact refuses_ok _
  · exact refuses_error rfl

theorem refuses_buildInfoFormat (mode ds df fig dec : Nat) :
    RefusesWithReject (buildInfoFormat mode ds df fig dec) := by
  refine refuses_require _ rfl ?_
  dsimp only
  split
  · exact refuses_error (refuses_buildFrame _ _ _ ‹_›)
  · exact refuses_ok _

theorem refuses_buildSys (b : Nat) : RefusesWithReject (buildSys b) := by
  unfold buildSys
  split
  · exact refuses_error (refuses_require _ rfl (refuses_ok _) _ ‹_›)
  · exact refuses_ok _

theorem refuses_buildMsg (spec : MsgSpec) : RefusesWithReject (buildMsg spec) := by
  cases spec with
  | sys => exact refuses_buildSys _
  | cmdType | cmdModes | cmdSpeed | cmdVersion | infoModeCombos =>
    exact refuses_require _ rfl (refuses_buildPlain _ _)
  | cmdSelect | cmdWrite | cmdUnk1 | cmdExtMode | infoRaw | infoPct | infoSi | data =>
    exact refuses_buildPlain _ _
  | infoName | infoUnits => exact refuses_buildText _ _ _ _
  | infoMapping => exact refuses_buildInfoMapping _ _ _
  | infoFormat => exact refuses_buildInfoFormat _ _ _ _ _

theorem refuses_buildWrite2 (cfg : Cfg) (mode : Nat) (raw : List Byte) :
    RefusesWithReject (buildWrite2 cfg mode raw) := by
  refine refuses_require _ rfl ?_
  split
  · exact refuses_error (refuses_buildFrame _ _ _ ‹_›)
  · split
    · exact refuses_error (refuses_buildFrame _ _ _ ‹_›)
    · exact refuses_ok _

theorem refuses_encodeQuery (cfg : Cfg) (q : Query) : RefusesWithReject (encodeQuery cfg q) := by
  unfold encodeQuery
  split
  · split
    · exact refuses_error (refuses_buildMsg _ _ ‹_›)
    · exact refuses_ok _
  · split
    · split
      · exact refuses_error (refuses_buildWrite2 _ _ _ _ ‹_›)
      · exact refuses_ok _
    · split
      · exact refuses_error (refuses_buildFrame _ _ _ ‹_›)
      · exact refuses_ok _

/-! ### The actions of a handler -/

/-- The actions a handler puts out, from `s` to `t` on the event `ev`: their classes, what goes with a
fatal report, what is sent and delivered, and who is told a new baud rate. -/
structure Emits (s : State) (ev : Event) (t : State) (mid : List Action) : Prop where
  outputs : t.outputs = s.outputs ++ mid
  reports : ∀ c, .report c ∈ mid → classOf c = .fatal ∨ classOf c = .fault
  rejects : ∀ c, .reject c ∈ mid → classOf c = .reject
  oneCondition : (conditionsIn mid).length ≤ 1
  fatalFalls : ∀ c, .report c ∈ mid → classOf c = .fatal →
    s.phase ≠ .disconnected ∧ t.phase = .disconnected
  fallIsFatal : s.phase ≠ .disconnected → t.phase = .disconnected →
    ∃ c, .report c ∈ mid ∧ classOf c = .fatal
  sends : ∀ bs, .tx bs ∈ mid → bs = [s.cfg.sysAck] ∧ t.phase = .handshaking ∧ s.hsStep = .capture ∧
    t.hsStep = .settle
  delivers : ∀ d, .deliver d ∈ mid → t.phase = .active ∧ ∃ b, ev = .rx b
  baud : t.activeBaud = s.activeBaud ∨ .openTransport t.activeBaud ∈ mid

section
variable {s t : State} {ev : Event}

theorem emits_nothing (houtputs : t.outputs = s.outputs) (hphase : t.phase = s.phase)
    (hbaud : t.activeBaud = s.activeBaud) : Emits s ev t [] where
  outputs := by rw [houtputs, List.append_nil]
  reports := by simp
  rejects := by simp
  oneCondition := Nat.zero_le _
  fatalFalls := by simp
  fallIsFatal hs ht := absurd (hphase ▸ ht) hs
  sends := by simp
  delivers := by simp
  baud := .inl hbaud

theorem emits_reject {c : Condition} (hc : classOf c = .reject) :
    Emits s ev (rejectEvent c s) [.reject c] where
  outputs := rfl
  reports := by simp
  rejects := by simp [hc]
  oneCondition := le_rfl
  fatalFalls := by simp
  fallIsFatal hs ht := absurd ht hs
  sends := by simp
  delivers := by simp
  baud := .inl rfl

theorem report_mem_fatalActions {c d : Condition} : .report d ∈ fatalActions c ↔ d = c := by
  unfold fatalActions
  split <;> simp

theorem mem_fatalActions {a : Action} {c : Condition} (h : a ∈ fatalActions c) :
    a = .report c ∨ a = .closeTransport := by
  unfold fatalActions at h
  split at h <;> simp at h <;> simp [h]

theorem emits_fatal {c : Condition} {u : State} (hc : classOf c = .fatal) (hs : s.phase ≠ .disconnected)
    (houtputs : u.outputs = s.outputs) (hbaud : u.activeBaud = s.activeBaud) :
    Emits s ev (fatal c u) (fatalActions c) where
  outputs := by rw [fatal_outputs, houtputs]
  reports d hd := .inl (report_mem_fatalActions.1 hd ▸ hc)
  rejects d hd := by simpa using mem_fatalActions hd
  oneCondition := by simp
  fatalFalls _ _ _ := ⟨hs, rfl⟩
  fallIsFatal _ _ := ⟨c, report_mem_fatalActions.2 rfl, hc⟩
  sends bs hbs := by simpa using mem_fatalActions hbs
  delivers d hd := by simpa using mem_fatalActions hd
  baud := .inl hbaud

/-- A completed frame: a checksum fault or none, then a delivery or none. -/
theorem emits_completed {b : Byte} {reports deliveries : List Action} (ht : t.phase = .active)
    (hreports : reports = [] ∨ ∃ rx acc, reports = [.report (.checksumFault rx acc)])
    (hdeliveries : deliveries = [] ∨ ∃ d, deliveries = [.deliver d])
    (houtputs : t.outputs = s.outputs ++ (reports ++ deliveries)) (hbaud : t.activeBaud = s.activeBaud) :
    Emits s (.rx b) t (reports ++ deliveries) := by
  have hmem {a : Action} (ha : a ∈ reports ++ deliveries) :
      (∃ rx acc, a = .report (.checksumFault rx acc)) ∨ ∃ d, a = .deliver d := by
    rcases List.mem_append.1 ha with ha | ha
    · rcases hreports with rfl | ⟨rx, acc, rfl⟩
      · cases ha
      · exact .inl ⟨rx, acc, List.mem_singleton.1 ha⟩
    · rcases hdeliveries with rfl | ⟨d, rfl⟩
      · cases ha
      · exact .inr ⟨d, List.mem_singleton.1 ha⟩
  exact
    { outputs := houtputs
      reports := fun c hc => by
        obtain ⟨rx, acc, h⟩ | ⟨d, h⟩ := hmem hc <;> cases h
        exact .inr rfl
      rejects := fun c hc => by obtain ⟨rx, acc, h⟩ | ⟨d, h⟩ := hmem hc <;> cases h
      oneCondition := by
        rcases hreports with rfl | ⟨rx, acc, rfl⟩ <;> rcases hdeliveries with rfl | ⟨d, rfl⟩ <;>
          simp [conditionOf]
      fatalFalls := fun c hc hfatal => by
        obtain ⟨rx, acc, h⟩ | ⟨d, h⟩ := hmem hc <;> cases h
        cases hfatal
      fallIsFatal := fun _ hdisc => by
        rw [ht] at hdisc
        cases hdisc
      sends := fun bs hbs => by obtain ⟨rx, acc, h⟩ | ⟨d, h⟩ := hmem hbs <;> cases h
      delivers := fun d _ => ⟨ht, b, rfl⟩
      baud := .inl hbaud }

end

/-- Every handler's actions. -/
theorem handles_emits {now : Nat} {s t : State} {ev : Event} (h : Handles now s ev t) :
    ∃ mid, Emits s ev t mid := by
  cases h with
  | startRejected | submitRejected | queryBusy => exact ⟨_, emits_reject rfl⟩
  | queryRefused q c _ _ henc => exact ⟨_, emits_reject (refuses_encodeQuery _ _ _ henc)⟩
  | queryKept | ignored | settling | quiet | captured => exact ⟨_, emits_nothing rfl rfl rfl⟩
  | started hphase =>
    exact ⟨[.openTransport s.cfg.handshakeBaud], rfl, by simp, by simp, by simp [conditionOf], by simp,
      by simp, by simp, by simp, by simp⟩
  | matched b hphase hstep =>
    exact ⟨[.tx [s.cfg.sysAck]], rfl, by simp, by simp, by simp [conditionOf], by simp, by simp [hphase],
      by simp [hphase, hstep], by simp, by simp⟩
  | retried _ hphase =>
    exact ⟨[.report (.handshakeMismatch (s.hsLeft - 1))], rfl, by simp [classOf], by simp,
      by simp [conditionOf], by simp [classOf], by simp [hphase], by simp, by simp, by simp⟩
  | gaveUp _ hphase => exact ⟨_, emits_fatal rfl (by simp [hphase]) rfl rfl⟩
  | closed hphase => exact ⟨_, emits_fatal rfl hphase rfl rfl⟩
  | shortRead hphase => exact ⟨_, emits_fatal rfl (by simp [hphase]) rfl rfl⟩
  | reservedHeader b hdr u hphase hb =>
    obtain ⟨_, _, _, _, _, _, _, rfl⟩ := fsByte_frame hb nofun
    exact ⟨_, emits_fatal rfl (by simp [hphase]) rfl rfl⟩
  | latched b u hphase hb =>
    obtain ⟨_, _, _, _, _, _, _, rfl⟩ := fsByte_frame hb nofun
    exact ⟨_, emits_nothing rfl rfl rfl⟩
  | completed b i u t hphase hb hexec =>
    obtain ⟨_, _, _, _, _, _, _, rfl⟩ := fsByte_frame hb nofun
    obtain ⟨f, reports, hreports, ⟨-, -, -, rfl⟩ | rfl⟩ := exec_cases hexec
    · exact ⟨_, emits_completed (deliveries := []) hphase hreports (.inl rfl)
        (by simp [held]) rfl⟩
    · exact ⟨_, emits_completed hphase hreports (.inr ⟨_, rfl⟩) (List.append_assoc ..) rfl⟩

/-! ### The registers a handler moves -/

section
variable {now : Nat} {s t : State} {ev : Event}

theorem handles_keeps_cfg (h : Handles now s ev t) : t.cfg = s.cfg ∧ t.tickNs = s.tickNs := by
  cases h with
  | reservedHeader b hdr u _ hb | latched b u _ hb =>
    obtain ⟨_, _, _, _, _, _, _, rfl⟩ := fsByte_frame hb nofun
    exact ⟨rfl, rfl⟩
  | completed b i u t _ hb hexec =>
    obtain ⟨_, _, _, _, _, _, _, rfl⟩ := fsByte_frame hb nofun
    obtain ⟨_, _, _, rfl⟩ := exec_frame _ _ _ hexec
    exact ⟨rfl, rfl⟩
  | _ => exact ⟨rfl, rfl⟩

/-- A handler keeps the phase, starts a session, or falls to `Disconnected` (60_exceptions.md R358). -/
theorem handles_phase (h : Handles now s ev t) : t.phase = s.phase ∨
    (s.phase = .disconnected ∧ t.phase = .handshaking ∧ ev = .start ∧ WellFormedCfg s.tickNs s.cfg) ∨
    t.phase = .disconnected := by
  cases h with
  | started hphase hcfg => exact .inr (.inl ⟨hphase, rfl, rfl, hcfg⟩)
  | gaveUp | closed | shortRead | reservedHeader => exact .inr (.inr rfl)
  | latched b u _ hb =>
    obtain ⟨_, _, _, _, _, _, _, rfl⟩ := fsByte_frame hb nofun
    exact .inl rfl
  | completed b i u t _ hb hexec =>
    obtain ⟨_, _, _, _, _, _, _, rfl⟩ := fsByte_frame hb nofun
    obtain ⟨_, _, _, rfl⟩ := exec_frame _ _ _ hexec
    exact .inl rfl
  | _ => exact .inl rfl

/-- A handler that ends in `Active` began there. -/
theorem handles_ends_active (ht : t.phase = .active) (h : Handles now s ev t) : s.phase = .active := by
  rcases handles_phase h with heq | ⟨-, ht', -, -⟩ | hdisc
  · exact heq.symm.trans ht
  · simp [ht'] at ht
  · simp [hdisc] at ht

/-- A handler that stays in `Active` leaves the timers, and the query slot unless it fills it. -/
theorem handles_of_stays_active (hs : s.phase = .active) (ht : t.phase = .active)
    (h : Handles now s ev t) :
    t.lastKeepaliveTime = s.lastKeepaliveTime ∧ t.lastQueryTime = s.lastQueryTime ∧
      (t.pendingQuery = s.pendingQuery ∨ s.pendingQuery = none ∧ ∃ q eq, ev = .submit q ∧
        encodeQuery s.cfg q = .ok eq ∧ t.pendingQuery = some eq) := by
  cases h with
  | queryKept q eq _ hfree henc => exact ⟨rfl, rfl, .inr ⟨hfree, q, eq, rfl, henc, rfl⟩⟩
  | started hphase => simp [hs] at hphase
  | gaveUp | closed | shortRead | reservedHeader => cases ht
  | latched b u _ hb =>
    obtain ⟨_, _, _, _, _, _, _, rfl⟩ := fsByte_frame hb nofun
    exact ⟨rfl, rfl, .inl rfl⟩
  | completed b i u t _ hb hexec =>
    obtain ⟨_, _, _, _, _, _, _, rfl⟩ := fsByte_frame hb nofun
    obtain ⟨_, _, _, rfl⟩ := exec_frame _ _ _ hexec
    exact ⟨rfl, rfl, .inl rfl⟩
  | _ => exact ⟨rfl, rfl, .inl rfl⟩

/-- A multi-part exchange stays open until a frame is delivered (46_session.md R298). -/
theorem handles_keeps_multipart (hs : s.phase = .active) (ht : t.phase = .active)
    (hopen : s.multipartPending = true) (h : Handles now s ev t) :
    t.multipartPending = true ∨ ∃ reports d, t.outputs = s.outputs ++ (reports ++ [.deliver d]) := by
  cases h with
  | started hphase => simp [hs] at hphase
  | gaveUp | closed | shortRead | reservedHeader => cases ht
  | latched b u _ hb =>
    obtain ⟨_, _, _, _, _, _, _, rfl⟩ := fsByte_frame hb nofun
    exact .inl hopen
  | completed b i u t _ hb hexec =>
    obtain ⟨_, _, _, _, _, _, _, rfl⟩ := fsByte_frame hb nofun
    obtain ⟨f, reports, -, ⟨-, -, -, rfl⟩ | rfl⟩ := exec_cases hexec
    · exact .inl rfl
    · exact .inr ⟨reports, _, List.append_assoc ..⟩
  | _ => exact .inl hopen

/-- In `Active` a received byte is counted, on every path (44_frame_decoder.md R225). -/
theorem handles_counts_bytes (hs : s.phase = .active) (h : Handles now s ev t) :
    ((∃ b, ev = .rx b) → t.rxPos = s.rxPos + 1) ∧ ((∀ b, ev ≠ .rx b) → t.rxPos = s.rxPos) := by
  cases h with
  | ignored _ hphase | settling _ hphase | captured _ hphase | matched _ hphase | retried _ hphase
  | gaveUp _ hphase | started hphase => simp [hs] at hphase
  | reservedHeader b hdr u _ hb | latched b u _ hb =>
    obtain ⟨_, _, _, _, _, _, _, rfl⟩ := fsByte_frame hb nofun
    exact ⟨fun _ => rfl, fun hne => absurd rfl (hne b)⟩
  | completed b i u t _ hb hexec =>
    obtain ⟨_, _, _, _, _, _, _, rfl⟩ := fsByte_frame hb nofun
    obtain ⟨_, _, _, rfl⟩ := exec_frame _ _ _ hexec
    exact ⟨fun _ => rfl, fun hne => absurd rfl (hne b)⟩
  | _ => exact ⟨nofun, fun _ => rfl⟩

end

/-! ### The three parts of a step -/

theorem step_event {s s' : State} {ev : Event} {now : Nat} {rest : List Input}
    (hev : NextEvent s ev now rest) (hreset : ev ≠ .reset) (h : step s = .next s') :
    ∃ t, Handles now (settleTest now { s with inputs := rest }) ev t ∧ s' = schedActive now t := by
  have hev : s.inputs = .event ev now :: rest := hev
  rcases step_handles h with ⟨hin, -⟩ | ⟨c, r, hin, -⟩ | ⟨n, r, hin, -⟩ | ⟨e, n, r, t, hin, -, ht, heq⟩
  · rw [hin] at hev
    cases hev
  · rw [hin] at hev
    cases hev
  · have hin : s.inputs = .event .reset n :: r := hin
    rw [hin] at hev
    cases hev
    exact absurd rfl hreset
  · have hin : s.inputs = .event e n :: r := hin
    rw [hin] at hev
    cases hev
    exact ⟨t, ht, heq⟩

/-- The step of an event in `Active`, where the settle test does nothing. -/
theorem step_event_of_active {s s' : State} {ev : Event} {now : Nat} {rest : List Input}
    (hev : NextEvent s ev now rest) (hreset : ev ≠ .reset) (hphase : s.phase = .active)
    (h : step s = .next s') : ∃ t, Handles now { s with inputs := rest } ev t ∧ s' = schedActive now t := by
  have hphase' : { s with inputs := rest }.phase = .active := hphase
  obtain ⟨t, ht, heq⟩ := step_event hev hreset h
  rw [settleTest_of_active now hphase'] at ht
  exact ⟨t, ht, heq⟩

/-- The settle test puts out the new baud rate, or nothing. -/
theorem settleTest_emits (now : Nat) (s : State) : ∃ pre, (settleTest now s).outputs = s.outputs ++ pre ∧
    ((pre = [] ∧ settleTest now s = s) ∨
      (pre = [.setBaud s.cfg.productionBaud] ∧ s.phase = .handshaking ∧ s.hsStep = .settle ∧
        s.settleDeadline ≤ now ∧ settleTest now s = activate now s)) := by
  rcases settleTest_cases now s with ⟨hphase, hstep, hdue, heq⟩ | ⟨-, heq⟩ <;> rw [heq]
  · exact ⟨_, rfl, .inr ⟨rfl, hphase, hstep, hdue, rfl⟩⟩
  · exact ⟨[], (List.append_nil _).symm, .inl ⟨rfl, rfl⟩⟩

/-- The scheduler changes four session registers and transmits, in `Active` alone. -/
theorem schedActive_frame (now : Nat) (t : State) :
    ∃ post ka lq pq mp, (∀ a ∈ post, ∃ bs, a = .tx bs ∧ t.phase = .active ∧
        (bs = [t.cfg.sysKeepalive] ∨ ∃ q, t.pendingQuery = some q ∧ bs = q.bytes)) ∧
      schedActive now t = { t with
        outputs := t.outputs ++ post, lastKeepaliveTime := ka, lastQueryTime := lq,
        pendingQuery := pq, multipartPending := mp } := by
  by_cases hphase : t.phase = .active
  · obtain ⟨post, ka, lq, pq, mp, hpost, heq⟩ := sched_frame now t
    refine ⟨post, ka, lq, pq, mp, fun a ha => ?_, by rw [schedActive, if_pos hphase, heq]⟩
    obtain ⟨bs, rfl, hbs⟩ := hpost a ha
    exact ⟨bs, rfl, hphase, hbs⟩
  · exact ⟨[], t.lastKeepaliveTime, t.lastQueryTime, t.pendingQuery, t.multipartPending, by simp,
      by rw [schedActive, if_neg hphase, List.append_nil]⟩

/-- The three parts of a step of an event, with their actions. -/
structure EventStep (s : State) (ev : Event) (now : Nat) (s' u t : State) (pre mid post : List Action) :
    Prop where
  produced : Produced s s' (pre ++ mid ++ post)
  settled : (pre = [] ∧ u.phase = s.phase ∧ u.activeBaud = s.activeBaud ∧ u.hsStep = s.hsStep ∧
      u.pendingQuery = s.pendingQuery) ∨
    (pre = [.setBaud s.cfg.productionBaud] ∧ s.phase = .handshaking ∧ s.hsStep = .settle ∧
      s.settleDeadline ≤ now ∧ u.phase = .active ∧ u.activeBaud = s.cfg.productionBaud ∧
      u.pendingQuery = none)
  settledCfg : u.cfg = s.cfg ∧ u.tickNs = s.tickNs
  handles : Handles now u ev t
  emits : Emits u ev t mid
  sends : ∀ a ∈ post, ∃ bs, a = .tx bs ∧ t.phase = .active ∧
    (bs = [t.cfg.sysKeepalive] ∨ ∃ q, t.pendingQuery = some q ∧ bs = q.bytes)
  kept : s'.phase = t.phase ∧ s'.cfg = t.cfg ∧ s'.tickNs = t.tickNs ∧ s'.activeBaud = t.activeBaud ∧
    s'.hsStep = t.hsStep

theorem eventStep_of_step {s s' : State} {ev : Event} {now : Nat} {rest : List Input}
    (hev : NextEvent s ev now rest) (hreset : ev ≠ .reset) (h : step s = .next s') :
    ∃ u t pre mid post, EventStep s ev now s' u t pre mid post := by
  obtain ⟨t, ht, rfl⟩ := step_event hev hreset h
  obtain ⟨mid, hmid⟩ := handles_emits ht
  obtain ⟨pre, hpre, hsettled⟩ := settleTest_emits now { s with inputs := rest }
  obtain ⟨post, ka, lq, pq, mp, hpost, hsched⟩ := schedActive_frame now t
  refine ⟨settleTest now { s with inputs := rest }, t, pre, mid, post, ?_, ?_, ?_, ht, hmid, hpost, ?_⟩
  · rw [Produced, hsched, hmid.outputs, hpre, List.append_assoc, List.append_assoc, List.append_assoc]
  · rcases hsettled with ⟨hnil, heq⟩ | ⟨hbaud, hphase, hstep, hdue, heq⟩ <;> rw [heq]
    · exact .inl ⟨hnil, rfl, rfl, rfl, rfl⟩
    · exact .inr ⟨hbaud, hphase, hstep, hdue, rfl, rfl, rfl⟩
  · rcases hsettled with ⟨-, heq⟩ | ⟨-, -, -, -, heq⟩ <;> rw [heq] <;> exact ⟨rfl, rfl⟩
  · rw [hsched]
    exact ⟨rfl, rfl, rfl, rfl, rfl⟩

section
variable {s s' u t : State} {ev : Event} {now : Nat} {pre mid post : List Action}

/-- An action of the step that neither tells a baud rate nor transmits is the handler's. -/
theorem EventStep.mem_mid (h : EventStep s ev now s' u t pre mid post) {a : Action}
    (ha : a ∈ pre ++ mid ++ post) (hbaud : ∀ baud, a ≠ .setBaud baud) (htx : ∀ bs, a ≠ .tx bs) :
    a ∈ mid := by
  rcases List.mem_append.1 ha with ha | ha
  · rcases List.mem_append.1 ha with ha | ha
    · rcases h.settled with ⟨rfl, -⟩ | ⟨rfl, -⟩
      · cases ha
      · exact absurd (List.mem_singleton.1 ha) (hbaud _)
    · exact ha
  · obtain ⟨bs, rfl, -⟩ := h.sends a ha
    exact absurd rfl (htx bs)

/-- A transmission is the handler's or the scheduler's. -/
theorem EventStep.tx_mem (h : EventStep s ev now s' u t pre mid post) {bs : List Byte}
    (ha : .tx bs ∈ pre ++ mid ++ post) : .tx bs ∈ mid ∨ (t.phase = .active ∧
      (bs = [t.cfg.sysKeepalive] ∨ ∃ q, t.pendingQuery = some q ∧ bs = q.bytes)) := by
  rcases List.mem_append.1 ha with ha | ha
  · rcases List.mem_append.1 ha with ha | ha
    · rcases h.settled with ⟨rfl, -⟩ | ⟨rfl, -⟩
      · cases ha
      · cases List.mem_singleton.1 ha
    · exact .inl ha
  · obtain ⟨bs', heq, hsent⟩ := h.sends _ ha
    cases heq
    exact .inr hsent

/-- Only the handler's actions carry conditions. -/
theorem EventStep.conditions (h : EventStep s ev now s' u t pre mid post) :
    conditionsIn (pre ++ mid ++ post) = conditionsIn mid := by
  have hpre : conditionsIn pre = [] := by
    rcases h.settled with ⟨rfl, -⟩ | ⟨rfl, -⟩ <;> rfl
  have hpost : conditionsIn post = [] := by
    refine List.filterMap_eq_nil_iff.2 fun a ha => ?_
    obtain ⟨bs, rfl, -⟩ := h.sends a ha
    rfl
  rw [conditionsIn_append, conditionsIn_append, hpre, hpost, List.nil_append, List.append_nil]

/-- The settle test neither enters nor leaves `Disconnected`. -/
theorem EventStep.settled_disconnected (h : EventStep s ev now s' u t pre mid post) :
    u.phase = .disconnected ↔ s.phase = .disconnected := by
  rcases h.settled with ⟨-, hphase, -⟩ | ⟨-, hs, -, -, hu, -⟩
  · rw [hphase]
  · simp [hs, hu]

end

/-! ### The obligations over all steps -/

/-- A step that takes no event but a reset puts nothing out. -/
theorem step_quiet_or_event {s s' : State} (h : step s = .next s') :
    (Produced s s' [] ∧ s'.phase = s.phase ∧ s'.activeBaud = s.activeBaud ∧ s'.tickNs = s.tickNs ∧
      (s'.cfg = s.cfg ∨
        (s.phase = .disconnected ∧ ∃ c rest, s.inputs = .configure c :: rest ∧ s'.cfg = c))) ∨
    (Produced s s' [] ∧ s'.phase = .disconnected ∧ s'.tickNs = s.tickNs ∧ s'.cfg = s.cfg ∧
      ∃ now rest, NextEvent s .reset now rest) ∨
    ∃ ev now rest u t pre mid post, NextEvent s ev now rest ∧ EventStep s ev now s' u t pre mid post := by
  have hnothing : s.outputs = s.outputs ++ [] := (List.append_nil _).symm
  rcases step_handles h with ⟨-, rfl⟩ | ⟨c, rest, hin, hphase, rfl⟩ | ⟨now, rest, hev, rfl⟩ |
    ⟨ev, now, rest, t, hev, hreset, -, -⟩
  · exact .inl ⟨hnothing, rfl, rfl, rfl, .inl rfl⟩
  · exact .inl ⟨hnothing, rfl, rfl, rfl, .inr ⟨hphase, c, rest, hin, rfl⟩⟩
  · exact .inr (.inl ⟨hnothing, rfl, rfl, rfl, now, rest, hev⟩)
  · obtain ⟨u, t, pre, mid, post, hstep⟩ := eventStep_of_step hev hreset h
    exact .inr (.inr ⟨ev, now, rest, u, t, pre, mid, post, hev, hstep⟩)

/-- Settles O57: only the handler puts out conditions, one at most, and falls when it is fatal. -/
theorem conditionDiscipline : Obligations.ConditionDiscipline := by
  intro s s' h
  rcases step_quiet_or_event h with ⟨hout, hphase, -⟩ | ⟨hout, hphase, -, -, hreset⟩ |
    ⟨ev, now, rest, u, t, pre, mid, post, hev, hstep⟩
  · exact ⟨[], hout, by simp, by simp, by simp, by simp, fun hs hs' => absurd (hphase ▸ hs') hs⟩
  · exact ⟨[], hout, by simp, by simp, by simp, by simp, fun _ _ => .inl hreset⟩
  · obtain ⟨hphase, -⟩ := hstep.kept
    have hmid := hstep.emits
    have hdisc := hstep.settled_disconnected
    refine ⟨_, hstep.produced, fun c hc => ?_, fun c hc => ?_, ?_, fun c hc hfatal => ?_, fun hs hs' => ?_⟩
    · exact hmid.reports c (hstep.mem_mid hc nofun nofun)
    · exact hmid.rejects c (hstep.mem_mid hc nofun nofun)
    · rw [hstep.conditions]
      exact hmid.oneCondition
    · obtain ⟨hu, ht⟩ := hmid.fatalFalls c (hstep.mem_mid hc nofun nofun) hfatal
      exact ⟨fun hs => hu (hdisc.2 hs), hphase.trans ht⟩
    · obtain ⟨c, hc, hfatal⟩ := hmid.fallIsFatal (fun hu => hs (hdisc.1 hu)) (hphase.symm.trans hs')
      exact .inr ⟨c, List.mem_append_left _ (List.mem_append_right _ hc), hfatal⟩

/-- Settles O56: a handler starts sessions only, and the settle test alone enters `Active`. -/
theorem phaseEntries : Obligations.PhaseEntries := by
  intro s s' h
  rcases step_quiet_or_event h with ⟨-, hphase, -⟩ | ⟨-, hphase, -⟩ |
    ⟨ev, now, rest, u, t, pre, mid, post, hev, hstep⟩
  · exact ⟨fun hs hs' => absurd (hphase.trans hs) hs', fun hs hs' => absurd (hphase.symm.trans hs') hs⟩
  · exact ⟨fun _ hs' => absurd hphase hs', fun _ hs' => by simp [hphase] at hs'⟩
  · obtain ⟨hphase, -⟩ := hstep.kept
    obtain ⟨hcfg, htick⟩ := hstep.settledCfg
    have hhandler := handles_phase hstep.handles
    rw [hphase]
    refine ⟨fun hs ht => ?_, fun hs ht => ?_⟩
    · have hu := hstep.settled_disconnected.2 hs
      rcases hhandler with heq | ⟨-, ht', rfl, hwf⟩ | hdisc
      · exact absurd (heq.trans hu) ht
      · rw [hcfg, htick] at hwf
        exact ⟨ht', hwf, now, rest, hev⟩
      · exact absurd hdisc ht
    · have hu := handles_ends_active ht hstep.handles
      rcases hstep.settled with ⟨-, hkept, -⟩ | ⟨hpre, hs', hsettle, hdue, -⟩
      · exact absurd (hkept.symm.trans hu) hs
      · exact ⟨hs', hsettle, ev, now, rest, _, hev, hdue, hstep.produced, by simp [hpre]⟩

/-- Settles O58: the handler sends the ACK alone, the scheduler the keep-alive and the waiting query. -/
theorem transmitByPhase : Obligations.TransmitByPhase := by
  intro s s' h
  rcases step_quiet_or_event h with ⟨hout, -⟩ | ⟨hout, -⟩ |
    ⟨ev, now, rest, u, t, pre, mid, post, hev, hstep⟩
  · exact ⟨[], hout, by simp, by simp, by simp, by simp⟩
  · exact ⟨[], hout, by simp, by simp, by simp, by simp⟩
  · obtain ⟨hphase, hcfg', -, -, hhs⟩ := hstep.kept
    obtain ⟨hcfg, -⟩ := hstep.settledCfg
    obtain ⟨htcfg, -⟩ := handles_keeps_cfg hstep.handles
    have hmid := hstep.emits
    refine ⟨_, hstep.produced, fun bs hbs => ?_, fun bs hbs hs' => ?_, fun bs hbs hs' => ?_,
      fun d hd => ?_⟩
    · rw [hphase]
      rcases hstep.tx_mem hbs with hbs | ⟨ht, -⟩
      · obtain ⟨-, ht, -⟩ := hmid.sends bs hbs
        simp [ht]
      · simp [ht]
    · rw [hphase] at hs'
      rcases hstep.tx_mem hbs with hbs | ⟨ht, -⟩
      · obtain ⟨hack, -, hcapture, hsettle⟩ := hmid.sends bs hbs
        rcases hstep.settled with ⟨-, -, -, hkept, -⟩ | ⟨-, -, -, -, hu, -⟩
        · exact ⟨hcfg ▸ hack, hkept ▸ hcapture, hhs.trans hsettle⟩
        · have hhandler := handles_phase hstep.handles
          simp [hu, hs'] at hhandler
      · simp [ht] at hs'
    · rw [hphase] at hs'
      rcases hstep.tx_mem hbs with hbs | ⟨-, rfl | ⟨q, hq, rfl⟩⟩
      · obtain ⟨-, ht, -⟩ := hmid.sends bs hbs
        simp [ht] at hs'
      · exact .inl (by rw [htcfg, hcfg])
      · have hu := handles_ends_active hs' hstep.handles
        obtain ⟨-, -, hkept | ⟨-, q', eq, rfl, henc, hfilled⟩⟩ :=
          handles_of_stays_active hu hs' hstep.handles
        · rw [hkept] at hq
          rcases hstep.settled with ⟨-, -, -, -, hslot⟩ | ⟨-, -, -, -, -, -, hslot⟩ <;> rw [hslot] at hq
          · exact .inr (.inl ⟨q, hq, rfl⟩)
          · cases hq
        · rw [hfilled] at hq
          cases hq
          exact .inr (.inr ⟨q', q, now, rest, hev, hcfg ▸ henc, rfl⟩)
    · obtain ⟨ht, b, rfl⟩ := hmid.delivers d (hstep.mem_mid hd nofun nofun)
      exact ⟨hphase.trans ht, b, now, rest, hev⟩

/-- Settles O59: the handlers and the scheduler leave the configuration and the tick; a new baud rate is
told by the settle test or by a start. -/
theorem configAndBaudWriters : Obligations.ConfigAndBaudWriters := by
  refine ⟨fun s c rest hin => step_of_configure hin, fun s hin => step_of_no_input hin, fun s s' h => ?_⟩
  rcases step_quiet_or_event h with ⟨-, -, hbaud, htick, hcfg⟩ | ⟨-, -, htick, hcfg, hreset⟩ |
    ⟨ev, now, rest, u, t, pre, mid, post, hev, hstep⟩
  · exact ⟨htick, hcfg, .inl hbaud⟩
  · exact ⟨htick, .inl hcfg, .inr (.inl hreset)⟩
  · obtain ⟨-, hcfg', htick', hbaud', -⟩ := hstep.kept
    obtain ⟨hcfg, htick⟩ := hstep.settledCfg
    obtain ⟨htcfg, httick⟩ := handles_keeps_cfg hstep.handles
    refine ⟨by rw [htick', httick, htick], .inl (by rw [hcfg', htcfg, hcfg]), ?_⟩
    rw [hbaud']
    rcases hstep.emits.baud with hkept | htold
    · rw [hkept]
      rcases hstep.settled with ⟨-, -, hsame, -⟩ | ⟨hpre, -, -, -, -, hnew, -⟩
      · exact .inl hsame
      · exact .inr (.inr ⟨_, hstep.produced, .inr (by simp [hpre, hnew])⟩)
    · exact .inr (.inr ⟨_, hstep.produced, .inl (by simp [htold])⟩)

/-! ### The obligations over the steps from `Active` -/

/-- Settles O60: the scheduler moves no decoder register. -/
theorem receivedByteIsCounted : Obligations.ReceivedByteIsCounted := by
  intro s s' ev now rest hev hreset hphase h
  obtain ⟨t, ht, rfl⟩ := step_event_of_active hev hreset hphase h
  obtain ⟨_, _, _, _, _, -, hsched⟩ := schedActive_frame now t
  have hcount := handles_counts_bytes (s := { s with inputs := rest }) hphase ht
  rw [hsched]
  exact hcount

/-- A step that begins and ends in `Active` is no reset: it is the handler and then the scheduler. -/
theorem step_stays_active {s s' : State} {ev : Event} {now : Nat} {rest : List Input}
    (hev : NextEvent s ev now rest) (h : step s = .next s') (hs : s.phase = .active)
    (hs' : s'.phase = .active) : ∃ t, Handles now { s with inputs := rest } ev t ∧ t.phase = .active ∧
      s' = sched now t := by
  have hreset : ev ≠ .reset := by
    rintro rfl
    rw [step_of_reset hev] at h
    cases h
    cases hs'
  obtain ⟨t, ht, rfl⟩ := step_event_of_active hev hreset hs h
  have hphase : t.phase = .active := by
    obtain ⟨_, _, _, _, _, -, hsched⟩ := schedActive_frame now t
    rwa [hsched] at hs'
  exact ⟨t, ht, hphase, if_pos hphase⟩

/-- The keep-alive test sends the keep-alive byte or nothing, and writes its timer alone. -/
theorem keepAlive_frame (now : Nat) (t : State) : ∃ new ka, (∀ a ∈ new, a = .tx [t.cfg.sysKeepalive]) ∧
    keepAlive now t = { t with outputs := t.outputs ++ new, lastKeepaliveTime := ka } := by
  rcases keepAlive_cases now t with ⟨-, heq⟩ | ⟨-, heq⟩
  · exact ⟨_, _, fun a ha => List.mem_singleton.1 ha, heq⟩
  · exact ⟨[], t.lastKeepaliveTime, by simp, by rw [heq, List.append_nil]⟩

/-- Settles O54: the scheduler alone empties the slot, and it tests the spacing (46_session.md R303). -/
theorem querySpacingKept : Obligations.QuerySpacingKept := by
  intro s s' q ev now rest hev h hs hq hs' hgone
  obtain ⟨t, ht, hphase, rfl⟩ := step_stays_active hev h hs hs'
  obtain ⟨mid, hmid⟩ := handles_emits ht
  obtain ⟨hcfg, -⟩ := handles_keeps_cfg ht
  obtain ⟨-, hlq, hslot⟩ := handles_of_stays_active (s := { s with inputs := rest }) hs hphase ht
  have hslot : t.pendingQuery = some q := by
    rcases hslot with hkept | ⟨hfree, -⟩
    · exact hkept.trans hq
    · exact absurd (hq.symm.trans hfree) (Option.some_ne_none q)
  obtain ⟨new, ka, -, hka⟩ := keepAlive_frame now t
  rw [sched, hka] at hgone ⊢
  rcases sendQuery_cases now { t with outputs := t.outputs ++ new, lastKeepaliveTime := ka } with
    ⟨q', hq', -, hspacing, heq⟩ | ⟨-, heq⟩ <;> rw [heq] at hgone ⊢
  · obtain rfl : q = q' := Option.some.inj (hslot.symm.trans hq')
    have hspacing : t.cfg.minQuerySpacing ≤ now - t.lastQueryTime := hspacing
    rw [hcfg, hlq] at hspacing
    refine ⟨hspacing, rfl, mid ++ new ++ [.tx q.bytes], ?_, by simp⟩
    simp only [Produced, hmid.outputs, List.append_assoc]
  · exact absurd (hslot.symm.trans hgone) (Option.some_ne_none q)

/-- While a multi-part exchange is open the scheduler sends the keep-alive byte at most. -/
theorem sched_of_multipart (now : Nat) {t : State} (hopen : t.multipartPending = true) :
    ∃ new ka, (∀ a ∈ new, a = .tx [t.cfg.sysKeepalive]) ∧
      sched now t = { t with outputs := t.outputs ++ new, lastKeepaliveTime := ka } := by
  obtain ⟨new, ka, hnew, hka⟩ := keepAlive_frame now t
  refine ⟨new, ka, hnew, ?_⟩
  rw [sched, hka]
  exact sendQuery_of_waits (.inr (.inl hopen))

/-- A step from `Active` with an open exchange and a waiting query that stays in `Active`: a frame is
delivered, or both are as before and the keep-alive byte at most is sent. -/
theorem step_of_multipart {s s' : State} {ev : Event} {now : Nat} {rest : List Input} {q : EncodedQuery}
    (hev : NextEvent s ev now rest) (h : step s = .next s') (hs : s.phase = .active)
    (hs' : s'.phase = .active) (hopen : s.multipartPending = true) (hq : s.pendingQuery = some q) :
    ∃ new, Produced s s' new ∧ ((∃ d, .deliver d ∈ new) ∨
      (s'.pendingQuery = some q ∧ s'.multipartPending = true ∧
        ∀ bs, .tx bs ∈ new → bs = [s.cfg.sysKeepalive])) := by
  obtain ⟨t, ht, hphase, rfl⟩ := step_stays_active hev h hs hs'
  obtain ⟨mid, hmid⟩ := handles_emits ht
  have houtputs : t.outputs = s.outputs ++ mid := hmid.outputs
  rcases handles_keeps_multipart (s := { s with inputs := rest }) hs hphase hopen ht with
    hstill | ⟨reports, d, hdelivers⟩
  · obtain ⟨hcfg, -⟩ := handles_keeps_cfg ht
    obtain ⟨-, -, hslot⟩ := handles_of_stays_active (s := { s with inputs := rest }) hs hphase ht
    have hslot : t.pendingQuery = some q := by
      rcases hslot with hkept | ⟨hfree, -⟩
      · exact hkept.trans hq
      · exact absurd (hq.symm.trans hfree) (Option.some_ne_none q)
    obtain ⟨new, ka, hnew, hsched⟩ := sched_of_multipart now hstill
    refine ⟨mid ++ new, ?_, .inr ?_⟩ <;> rw [hsched]
    · simp only [Produced, houtputs, List.append_assoc]
    · refine ⟨hslot, hstill, fun bs hbs => ?_⟩
      rcases List.mem_append.1 hbs with hbs | hbs
      · obtain ⟨-, hshake, -⟩ := hmid.sends bs hbs
        simp [hphase] at hshake
      · have hbyte := hnew _ hbs
        rw [hcfg] at hbyte
        exact Action.tx.inj hbyte
  · have hdelivers : t.outputs = s.outputs ++ (reports ++ [.deliver d]) := hdelivers
    obtain rfl := List.append_cancel_left (houtputs.symm.trans hdelivers)
    obtain ⟨new, _, _, _, _, -, hsched⟩ := sched_frame now t
    refine ⟨reports ++ [.deliver d] ++ new, ?_, .inl ⟨d, by simp⟩⟩
    rw [hsched]
    simp only [Produced, houtputs, List.append_assoc]

/-- Settles O53: without a delivery the exchange is still open when the scheduler runs, which then sends no
query (46_session.md R303). -/
theorem noQueryWhileMultipart : Obligations.NoQueryWhileMultipart := by
  intro s s' q h hs hopen hq
  by_cases hs' : s'.phase = .active
  · rcases step_handles h with ⟨-, rfl⟩ | ⟨c, rest, -, hdisc, -⟩ | ⟨now, rest, -, rfl⟩ |
      ⟨ev, now, rest, -, hev, -⟩
    · exact ⟨[], (List.append_nil _).symm, fun _ => .inl hq, fun _ _ => ⟨hopen, by simp⟩⟩
    · simp [hs] at hdisc
    · cases hs'
    · obtain ⟨new, hnew, hdelivered | ⟨hslot, hstill, hsent⟩⟩ := step_of_multipart hev h hs hs' hopen hq
      · exact ⟨new, hnew, fun _ => .inr hdelivered, fun hnone => absurd hdelivered (not_exists.2 hnone)⟩
      · exact ⟨new, hnew, fun _ => .inl hslot, fun _ _ => ⟨hstill, hsent⟩⟩
  · obtain ⟨new, hnew, -⟩ := conditionDiscipline s s' h
    exact ⟨new, hnew, fun hactive => absurd hactive hs', fun _ hactive => absurd hactive hs'⟩

/-- The query test leaves the keep-alive timer and the configuration. -/
theorem sendQuery_frame (now : Nat) (t : State) : ∃ new lq pq mp, sendQuery now t = { t with
    outputs := t.outputs ++ new, lastQueryTime := lq, pendingQuery := pq, multipartPending := mp } := by
  rcases sendQuery_cases now t with ⟨q, -, -, -, heq⟩ | ⟨-, heq⟩
  · exact ⟨_, _, _, _, heq⟩
  · exact ⟨[], t.lastQueryTime, t.pendingQuery, t.multipartPending, by rw [heq, List.append_nil]⟩

/-- Settles O55: the timer is re-armed exactly when the byte is due, and then at the time of the event. -/
theorem keepAliveGapBounded : Obligations.KeepAliveGapBounded := by
  intro s s' ev now rest before g hev h hs hs' hpast hrise hgap hdue
  obtain ⟨t, ht, hphase, rfl⟩ := step_stays_active hev h hs hs'
  obtain ⟨mid, hmid⟩ := handles_emits ht
  obtain ⟨hcfg, -⟩ := handles_keeps_cfg ht
  obtain ⟨hka, -, -⟩ := handles_of_stays_active (s := { s with inputs := rest }) hs hphase ht
  have hka : t.lastKeepaliveTime = s.lastKeepaliveTime := hka
  have hcfg : t.cfg = s.cfg := hcfg
  obtain ⟨new, lq, pq, mp, hquery⟩ := sendQuery_frame now (keepAlive now t)
  rw [sched, hquery]
  rcases keepAlive_cases now t with ⟨harmed, heq⟩ | ⟨hearly, heq⟩ <;> rw [heq]
  · refine ⟨le_rfl, .inl rfl, fun _ => ⟨by omega, mid ++ ([.tx [s.cfg.sysKeepalive]] ++ new), ?_, by simp⟩⟩
    simp only [Produced, hmid.outputs, hcfg, List.append_assoc]
  · refine ⟨?_, .inr hearly, fun hmoved => absurd hka hmoved⟩
    show t.lastKeepaliveTime ≤ now
    omega

/-! ### Reset, start and the other events of `Active` -/

/-- Settles O38: at reset the decoder is at a frame boundary and the session registers hold their entry
values. -/
theorem resetMeetsInvariants : Obligations.ResetMeetsInvariants :=
  ⟨decoderInv_of_idle rfl, sessionInv_of_disconnected rfl rfl rfl rfl rfl rfl rfl rfl⟩

/-- Settles O43: a reset comes before the settle test and the handlers (46_session.md R282). -/
theorem resetEvent : Obligations.ResetEvent := by
  intro s now rest hev
  exact ⟨_, step_of_reset hev, rfl, rfl, rfl, rfl, rfl, rfl, rfl, rfl, rfl, rfl, rfl, rfl, rfl, rfl, rfl⟩

/-- Settles O44: the handler of `Disconnected` starts the session or refuses the configuration. -/
theorem startEvent : Obligations.StartEvent := by
  refine ⟨fun s now rest hev hphase hcfg => ?opened, fun s now rest hev hphase hbad => ?refused⟩
  all_goals
    have hdisc : { s with inputs := rest }.phase = .disconnected := hphase
  case opened =>
    have hstart : Handles now { s with inputs := rest } .start _ := .started hphase hcfg
    exact step_of_disconnected hev nofun hphase
      ((handleEvent_of_disconnected hdisc).symm.trans (handleEvent_of_handles hstart)) nofun
  case refused =>
    rw [step_of_nextEvent hev, stepEvent_of_disconnected (ev := .start) now nofun hdisc, handleDisconnected]
    rcases startSession_cases { s with inputs := rest } with ⟨hcfg, -⟩ | ⟨-, heq⟩
    · exact absurd hcfg hbad
    · rw [heq, schedIfActive]

/-- An event of `Active` that raises a fatal condition: the fatal entry, and no scheduler (60_exceptions.md
R350). -/
theorem step_of_active_fatal {s u : State} {ev : Event} {now : Nat} {rest : List Input} {c : Condition}
    (hev : NextEvent s ev now rest) (hreset : ev ≠ .reset) (hphase : s.phase = .active)
    (hhandle : Handles now { s with inputs := rest } ev (fatal c u)) : step s = .next (fatal c u) := by
  have hphase' : { s with inputs := rest }.phase = .active := hphase
  rw [step_of_handles hev hreset ((settleTest_of_active now hphase').symm ▸ hhandle)]
  rfl

/-- Settles O49: the three fatal events of `Active` and the timeout at a frame boundary (46_session.md
R296, R299, R300). -/
theorem activeFatalEvents : Obligations.ActiveFatalEvents := by
  intro s now rest hphase
  refine ⟨fun hev => ?closed, fun hev hinside => ?shortRead, fun hev hidle => ?quiet,
    fun b hev hidle hcat hsc => ?reserved⟩
  case closed =>
    exact ⟨_, step_of_active_fatal hev nofun hphase (.closed (by simp [hphase])), rfl,
      fatal_entersDisconnected _ s rest⟩
  case shortRead =>
    exact ⟨_, step_of_active_fatal hev nofun hphase (.shortRead hphase hinside), rfl,
      fatal_entersDisconnected _ s rest⟩
  case quiet => exact step_of_active hev nofun hphase (congrArg _ (if_pos hidle)) hphase
  case reserved =>
    have hb : fsByte b { s with inputs := rest } = _ :=
      fsByte_of_reserved hidle ((categoryOf_ne_sys_iff b).2 hcat) (hsc.trans_eq (toNat_sizeField b).symm)
    exact ⟨_, step_of_active_fatal hev nofun hphase (.reservedHeader b b _ hphase hb), rfl,
      fatal_entersDisconnected _ s rest⟩

/-- A byte whose single-byte sequence decodes is a SYS byte. -/
theorem decode_singleton {b : Byte} {i : Instr} (h : decode [b] = .ok (i, [])) :
    categoryOf b = .sys ∧ i = .sys (sizeField b) (codeField b) := by
  obtain ⟨raw, hw, rfl, hbytes⟩ := decode_ok h
  rw [List.append_nil] at hbytes
  cases raw with
  | single hdr =>
    obtain rfl := List.singleton_inj.1 hbytes
    exact ⟨hw, rfl⟩
  | plain | withSub => simp [RawFrame.bytes] at hbytes

/-- Settles O35: the byte completes the frame that its bytes decode to, and the handler runs its meaning. -/
theorem stepRunsDecodedFrame : Obligations.StepRunsDecodedFrame := by
  intro s b now rest i hev hphase hst hdec
  have hb : fsByte b { s with inputs := rest } =
      (.complete i, { s with inputs := rest, rxPos := s.rxPos + 1, rxState := .idle }) := by
    rcases hst with hidle | hchk
    · have hbytes : s.frameBytes b = [b] := by simp [State.frameBytes, hidle]
      obtain ⟨hcat, rfl⟩ := decode_singleton (hbytes ▸ hdec)
      rw [fsByte_of_sys (s := { s with inputs := rest }) hidle hcat, ← hidle]
      rfl
    · exact fsByte_of_chk hchk hdec
  obtain ⟨t, hexec⟩ := exec_completes i { s with inputs := rest, rxPos := s.rxPos + 1, rxState := .idle }
  refine ⟨t, hexec, step_of_active hev nofun hphase ?_ ?_⟩
  · rw [handleActive, rxActive, hb]
    exact hexec
  · obtain ⟨_, _, _, rfl⟩ := exec_frame _ _ _ hexec
    exact hphase

end Sys2Proof.Machine

/-! SUPPORT. What each message kind decodes to, in the words of the spec's records, and the reception of a
record of each category (40_sys.md to 43_data.md, 46_session.md R295 to R298). -/

namespace Sys2Proof.Machine

open Sys2Proof.Safety

/-! ### Reception by category -/

/-- A CMD frame that is no EXT_MODE frame is delivered. -/
theorem receive_cmdFrame {cmd : Field3} (sc : Field3) (p : List Byte) (chk : Byte) (msg : Msg) (s : State)
    (hcmd : cmd ≠ 6) : receive (cmdFrame cmd sc p chk s.rxAcc msg) s =
      .next (delivered (cmdRecord cmd.toNat sc p chk s.rxAcc msg) (checksumReport chk s.rxAcc) s) := by
  rw [cmdFrame_eq_record, receive_eq (cmdRecord cmd.toNat sc p chk s.rxAcc msg) s chk s.rxAcc rfl rfl rfl,
    if_neg]
  rintro ⟨-, -, hcode⟩
  have hcode : BitVec.ofNat 3 cmd.toNat = 6 := hcode
  rw [BitVec.ofNat_toNat, BitVec.setWidth_eq] at hcode
  exact hcmd hcode

theorem receive_infoFrame (id : Byte) (sc wire : Field3) (plus8 : Bool) (p : List Byte) (chk : Byte)
    (msg : Msg) (s : State) : receive (infoFrame id sc wire plus8 p chk s.rxAcc msg) s =
      .next (delivered (infoRecord id sc wire plus8 p chk s.rxAcc msg) (checksumReport chk s.rxAcc) s) := by
  rw [infoFrame_eq_record,
    receive_eq (infoRecord id sc wire plus8 p chk s.rxAcc msg) s chk s.rxAcc rfl rfl rfl, if_neg]
  rintro ⟨-, hcat, -⟩
  cases hcat

theorem receive_dataFrame (sc wire : Field3) (p : List Byte) (chk : Byte) (msg : Msg) (s : State) :
    receive (dataFrame sc wire p chk s.rxAcc msg) s =
      .next (delivered (dataRecord sc wire p chk s.rxAcc msg) (checksumReport chk s.rxAcc) s) := by
  rw [dataFrame_eq_record, receive_eq (dataRecord sc wire p chk s.rxAcc msg) s chk s.rxAcc rfl rfl rfl,
    if_neg]
  rintro ⟨-, hcat, -⟩
  cases hcat

/-! ### SYS and DATA -/

/-- Settles O20: a SYS record holds no checksum, so nothing is reported, and it is no EXT_MODE frame. -/
theorem sysCompletes : Obligations.SysCompletes := by
  intro sizeBits code s
  have hreport : reportChecksum (sysRecord sizeBits code) s = s := rfl
  rw [exec, execSys, sysFrame_eq_record, receive, hreport]
  rcases onFrame_cases (sysRecord sizeBits code) s with ⟨-, hext, -⟩ | ⟨-, heq⟩
  · cases hext
  · rw [heq, delivered, List.append_nil]

/-- Settles O33: the record of the DATA category. -/
theorem dataCompletes : Obligations.DataCompletes := fun _ _ _ _ _ => receive_dataFrame ..

/-! ### CMD -/

theorem decodeCmdType_singleton (v : Byte) : decodeCmdType [v] = .cmdType v := rfl

theorem decodeCmdType_of_length_ne {p : List Byte} (h : p.length ≠ 1) :
    decodeCmdType p = .malformed .cmdType p := if_neg h

/-- Settles O21: the CMD record with the message of `decodeCmdType`. -/
theorem cmdTypeCompletes : Obligations.CmdTypeCompletes := by
  refine ⟨fun sc v chk s => ?_, fun sc p chk s hlen => ?_⟩
  · rw [← decodeCmdType_singleton]
    exact receive_cmdFrame _ _ _ _ _ (by decide)
  · rw [← decodeCmdType_of_length_ne hlen]
    exact receive_cmdFrame _ _ _ _ _ (by decide)

/-- A count is its byte plus one, in 9 bits (41_cmd.md R143). -/
theorem count_eq : ∀ b : Byte, b.setWidth 9 + 1 = BitVec.ofNat 9 (b.toNat + 1) := by decide

theorem decodeCmdModes_of_length_mem {p : List Byte} (h : p.length ∈ [1, 2, 4]) :
    decodeCmdModes p = .cmdModes (p.map fun b => BitVec.ofNat 9 (b.toNat + 1)) := by
  rw [decodeCmdModes, if_pos (by simpa using h)]
  simp only [count_eq]

theorem decodeCmdModes_of_length_not_mem {p : List Byte} (h : p.length ∉ [1, 2, 4]) :
    decodeCmdModes p = .malformed .cmdModes p := if_neg (by simpa using h)

/-- Settles O22: the CMD record with the message of `decodeCmdModes`. -/
theorem cmdModesCompletes : Obligations.CmdModesCompletes := by
  refine ⟨fun sc p chk s hlen => ?_, fun sc p chk s hlen => ?_⟩
  · rw [← decodeCmdModes_of_length_mem hlen]
    exact receive_cmdFrame _ _ _ _ _ (by decide)
  · rw [← decodeCmdModes_of_length_not_mem hlen]
    exact receive_cmdFrame _ _ _ _ _ (by decide)

theorem decodeCmdSpeed_four (b0 b1 b2 b3 : Byte) :
    decodeCmdSpeed [b0, b1, b2, b3] = .cmdSpeed (b3 ++ b2 ++ b1 ++ b0) :=
  congrArg Msg.cmdSpeed (leValue_four b0 b1 b2 b3)

theorem decodeCmdSpeed_of_length_ne {p : List Byte} (h : p.length ≠ 4) :
    decodeCmdSpeed p = .malformed .cmdSpeed p := if_neg h

/-- Settles O23: the CMD record with the message of `decodeCmdSpeed`. -/
theorem cmdSpeedCompletes : Obligations.CmdSpeedCompletes := by
  refine ⟨fun sc b0 b1 b2 b3 chk s => ?_, fun sc p chk s hlen => ?_⟩
  · rw [← decodeCmdSpeed_four]
    exact receive_cmdFrame _ _ _ _ _ (by decide)
  · rw [← decodeCmdSpeed_of_length_ne hlen]
    exact receive_cmdFrame _ _ _ _ _ (by decide)

/-- Settles O24: the three kinds whose message is the payload itself. -/
theorem cmdOpaqueKindsComplete : Obligations.CmdOpaqueKindsComplete := fun _ _ _ _ =>
  ⟨receive_cmdFrame _ _ _ _ _ (by decide), receive_cmdFrame _ _ _ _ _ (by decide),
    receive_cmdFrame _ _ _ _ _ (by decide)⟩

/-- An EXT_MODE frame is held when none is, and delivered otherwise (46_session.md R298). -/
theorem exec_cmdExtMode (sc : Field3) (p : List Byte) (chk : Byte) (s : State) :
    exec (.cmdExtMode sc p chk) s = .next (if s.extHold = none
      then held (cmdRecord 6 sc p chk s.rxAcc (.cmdExtMode p)) (checksumReport chk s.rxAcc) s
      else delivered (cmdRecord 6 sc p chk s.rxAcc (.cmdExtMode p)) (checksumReport chk s.rxAcc) s) := by
  have hrecord : (cmdRecord 6 sc p chk s.rxAcc (.cmdExtMode p)).cat = .cmd ∧
      (cmdRecord 6 sc p chk s.rxAcc (.cmdExtMode p)).code = 6 := ⟨rfl, rfl⟩
  have hframe := cmdFrame_eq_record 6 sc p chk s.rxAcc (decodeCmdExtMode p)
  rw [exec, execCmdExtMode, hframe, receive_eq _ s chk s.rxAcc rfl rfl rfl]
  simp only [show (6 : Field3).toNat = 6 from rfl, decodeCmdExtMode, hrecord, and_true]

/-- Settles O25: the hold decides. -/
theorem cmdExtModeCompletes : Obligations.CmdExtModeCompletes := by
  refine ⟨fun sc p chk s hnone => ?_, fun sc p chk s hheld => ?_⟩
  · rw [exec_cmdExtMode, if_pos hnone]
  · rw [exec_cmdExtMode, if_neg hheld]

/-- The nibbles of a version byte (41_cmd.md R155). -/
theorem version_nibbles : ∀ b : Byte, b.extractLsb' 4 4 = BitVec.ofNat 4 (b.toNat / 16) ∧
    b.extractLsb' 0 4 = BitVec.ofNat 4 (b.toNat % 16) := by
  decide

theorem decodeCmdVersion_eight (a0 a1 a2 a3 b0 b1 b2 b3 : Byte) :
    decodeCmdVersion [a0, a1, a2, a3, b0, b1, b2, b3] = .cmdVersion
      ⟨BitVec.ofNat 4 (a3.toNat / 16), BitVec.ofNat 4 (a3.toNat % 16), a2, a1 ++ a0⟩
      ⟨BitVec.ofNat 4 (b3.toNat / 16), BitVec.ofNat 4 (b3.toNat % 16), b2, b1 ++ b0⟩ := by
  obtain ⟨hmajor, hminor⟩ := version_nibbles a3
  obtain ⟨hmajor', hminor'⟩ := version_nibbles b3
  rw [← hmajor, ← hminor, ← hmajor', ← hminor', ← leValue_two, ← leValue_two]
  rfl

theorem decodeCmdVersion_of_length_ne {p : List Byte} (h : p.length ≠ 8) :
    decodeCmdVersion p = .malformed .cmdVersion p := if_neg h

/-- Settles O26: the CMD record with the message of `decodeCmdVersion`. -/
theorem cmdVersionCompletes : Obligations.CmdVersionCompletes := by
  refine ⟨fun sc a0 a1 a2 a3 b0 b1 b2 b3 chk s => ?_, fun sc p chk s hlen => ?_⟩
  · rw [← decodeCmdVersion_eight]
    exact receive_cmdFrame _ _ _ _ _ (by decide)
  · rw [← decodeCmdVersion_of_length_ne hlen]
    exact receive_cmdFrame _ _ _ _ _ (by decide)

/-! ### The text decoder (42_info.md R174) -/

theorem stripTrailingZeros_eq (p : List Byte) : stripTrailingZeros p = p.rdropWhile (· == 0) := rfl

/-- The stripped text ends in no zero and is followed by zeros alone. -/
theorem stripTrailingZeros_spec (p : List Byte) :
    (∃ k, p = stripTrailingZeros p ++ List.replicate k 0) ∧ (stripTrailingZeros p).getLast? ≠ some 0 := by
  rw [stripTrailingZeros_eq]
  constructor
  · refine ⟨(p.rtakeWhile (· == 0)).length, ?_⟩
    have hzeros : p.rtakeWhile (· == 0) = List.replicate (p.rtakeWhile (· == 0)).length 0 :=
      List.eq_replicate_of_mem fun b hb => by simpa using List.mem_rtakeWhile_imp hb
    rw [← hzeros, List.rdropWhile_append_rtakeWhile]
  · intro hlast
    have hne : p.rdropWhile (· == 0) ≠ [] := by
      intro hnil
      rw [hnil] at hlast
      cases hlast
    rw [List.getLast?_eq_getLast_of_ne_nil hne, Option.some.injEq] at hlast
    exact List.rdropWhile_last_not _ _ hne (beq_iff_eq.2 hlast)

/-- A text that ends in no zero comes back from any number of zeros after it. -/
theorem stripTrailingZeros_append_zeros {text : List Byte} (k : Nat) (h : text.getLast? ≠ some 0) :
    stripTrailingZeros (text ++ List.replicate k 0) = text := by
  rw [stripTrailingZeros_eq]
  induction k with
  | zero =>
    rw [List.replicate_zero, List.append_nil, List.rdropWhile_eq_self_iff]
    intro hne hzero
    rw [List.getLast?_eq_getLast_of_ne_nil hne] at h
    exact h (congrArg some (by simpa using hzero))
  | succ k ih =>
    rw [List.replicate_succ', ← List.append_assoc, List.rdropWhile_concat_pos _ _ _ (by simp), ih]

/-- The least zero among the first six bytes. -/
theorem zeroInFirstSix_eq_some_iff (p : List Byte) (z : Nat) :
    zeroInFirstSix p = some z ↔ z < 6 ∧ p[z]? = some 0 ∧ ∀ j, j < z → p[j]? ≠ some 0 := by
  rw [zeroInFirstSix, List.findIdx?_eq_some_iff_getElem]
  constructor
  · rintro ⟨hlt, hzero, hbelow⟩
    have hz : z < 6 ∧ z < p.length := by simpa using hlt
    refine ⟨hz.1, ?_, fun j hj hj' => ?_⟩
    · rw [List.getElem?_eq_getElem hz.2]
      simpa using hzero
    · have hne := hbelow j hj
      rw [List.getElem?_eq_getElem (hj.trans hz.2), Option.some.injEq] at hj'
      simp [hj'] at hne
  · rintro ⟨hz, hzero, hbelow⟩
    obtain ⟨hlt, hzero⟩ := List.getElem?_eq_some_iff.1 hzero
    refine ⟨by simpa using ⟨hz, hlt⟩, by simpa using hzero, fun j hj => ?_⟩
    have hne := hbelow j hj
    rw [List.getElem?_eq_getElem (hj.trans hlt)] at hne
    simpa using hne

theorem zeroInFirstSix_eq_none_iff (p : List Byte) :
    zeroInFirstSix p = none ↔ ∀ j, j < 6 → p[j]? ≠ some 0 := by
  constructor
  · intro hnone j hj hzero
    rw [zeroInFirstSix, List.findIdx?_eq_none_iff] at hnone
    obtain ⟨hlt, hzero⟩ := List.getElem?_eq_some_iff.1 hzero
    have hmem : (0 : Byte) ∈ p.take 6 := by
      rw [← hzero, ← List.getElem_take (j := 6) (h := by simpa using ⟨hj, hlt⟩)]
      exact List.getElem_mem _
    simpa using hnone 0 hmem
  · intro h
    cases hz : zeroInFirstSix p with
    | none => rfl
    | some z =>
      obtain ⟨hlt, hzero, -⟩ := (zeroInFirstSix_eq_some_iff p z).1 hz
      exact absurd hzero (h z hlt)

theorem decodeText_of_plain {p : List Byte} (h : p.length ≤ 12 ∨ zeroInFirstSix p = none) :
    decodeText p = (stripTrailingZeros p, none) := by
  unfold decodeText
  split
  case h_1 z hz =>
    rcases h with hlen | hnone
    · exact if_neg (Nat.not_lt.2 hlen)
    · simp [hnone] at hz
  case h_2 => rfl

theorem decodeText_of_flags {p : List Byte} {z : Nat} (hz : zeroInFirstSix p = some z)
    (hlen : 12 < p.length) : decodeText p = (p.take z, some ((p.drop (z + 1)).take 6)) := by
  simp only [decodeText, hz, if_pos hlen]

/-- The text decoder of the model is that of 42_info.md R174. -/
theorem textOf_decodeText (p : List Byte) : TextOf p (decodeText p).1 (decodeText p).2 := by
  obtain ⟨hzeros, hlast⟩ := stripTrailingZeros_spec p
  by_cases hplain : p.length ≤ 12 ∨ zeroInFirstSix p = none
  · rw [decodeText_of_plain hplain]
    exact .inr ⟨hplain.imp_right (zeroInFirstSix_eq_none_iff p).1, rfl, hzeros, hlast⟩
  · obtain ⟨hlen, hsome⟩ := not_or.1 hplain
    have hlen := Nat.not_le.1 hlen
    obtain ⟨z, hz⟩ := Option.ne_none_iff_exists'.1 hsome
    obtain ⟨hlt, hzero, hleast⟩ := (zeroInFirstSix_eq_some_iff p z).1 hz
    rw [decodeText_of_flags hz hlen]
    exact .inl ⟨z, hlt, hzero, hleast, hlen, rfl, rfl⟩

/-! ### INFO -/

/-- Settles O27: the INFO record with the text and flags of `decodeText`. -/
theorem infoTextKindsComplete : Obligations.InfoTextKindsComplete := by
  intro sc wire plus8 p chk s
  refine ⟨_, _, textOf_decodeText p, ?_, ?_⟩ <;> rw [← logicalMode_eq] <;> exact receive_infoFrame ..

theorem decodeRange_eight (a0 a1 a2 a3 b0 b1 b2 b3 : Byte) :
    decodeRange [a0, a1, a2, a3, b0, b1, b2, b3] =
      some (a3 ++ a2 ++ a1 ++ a0, b3 ++ b2 ++ b1 ++ b0) := by
  rw [← leValue_four, ← leValue_four]
  rfl

theorem decodeRange_of_length_ne {p : List Byte} (h : p.length ≠ 8) : decodeRange p = none := if_neg h

/-- Settles O28: the INFO record with the two patterns of `decodeRange`. -/
theorem infoRangeKindsComplete : Obligations.InfoRangeKindsComplete := by
  refine ⟨fun sc wire plus8 a0 a1 a2 a3 b0 b1 b2 b3 chk s => ?_, fun sc wire plus8 p chk s hlen => ?_⟩
  · have hrange := decodeRange_eight a0 a1 a2 a3 b0 b1 b2 b3
    simp only [exec, execInfoRaw, execInfoPct, execInfoSi, decodeInfoRaw, decodeInfoPct, decodeInfoSi,
      hrange, receive_infoFrame, logicalMode_eq, and_self]
  · have hrange := decodeRange_of_length_ne hlen
    simp only [exec, execInfoRaw, execInfoPct, execInfoSi, decodeInfoRaw, decodeInfoPct, decodeInfoSi,
      hrange, receive_infoFrame, and_self]

theorem decodeInfoMapping_of_length_ne (mode : LogicalMode) {p : List Byte} (h : p.length ≠ 2) :
    decodeInfoMapping mode p = .malformed .infoMapping p := if_neg h

/-- Settles O29: the INFO record with the message of `decodeInfoMapping`. -/
theorem infoMappingCompletes : Obligations.InfoMappingCompletes := by
  refine ⟨fun sc wire plus8 i o chk s => ?_, fun sc wire plus8 p chk s hlen => ?_⟩
  · rw [← logicalMode_eq]
    exact receive_infoFrame ..
  · rw [← decodeInfoMapping_of_length_ne (logicalMode wire plus8) hlen]
    exact receive_infoFrame ..

theorem length_comboWords (p : List Byte) : (comboWords p).length = p.length / 2 := by
  simp [comboWords]

/-- A word is its high byte before its low byte (20_memory.md R65). -/
theorem getElem?_comboWords {p : List Byte} {i : Nat} (hi : i < p.length / 2) :
    (comboWords p)[i]? = some (p.getD (2 * i + 1) 0 ++ p.getD (2 * i) 0) := by
  have hlo : 2 * i < p.length := by omega
  have hhi : 2 * i + 1 < p.length := by omega
  have htwo : (p.drop (2 * i)).take 2 = [p[2 * i], p[2 * i + 1]] := by
    rw [List.drop_eq_getElem_cons hlo, List.drop_eq_getElem_cons hhi]
    rfl
  rw [List.getD_eq_getElem _ _ hlo, List.getD_eq_getElem _ _ hhi, ← leValue_two, ← htwo]
  simp [comboWords, hi, memRead]

/-- The set of asserted modes (42_info.md R192). -/
theorem mem_assertedModes (words : List (BitVec 16)) (k : LogicalMode) :
    k ∈ assertedModes words ↔ ∃ w ∈ words, w.getLsbD k.toNat = true := by
  have hk : BitVec.ofNat 4 k.toNat = k := by rw [BitVec.ofNat_toNat, BitVec.setWidth_eq]
  simp only [assertedModes, List.mem_map, List.mem_filter, List.mem_range, List.any_eq_true]
  constructor
  · rintro ⟨n, ⟨hn, hw⟩, rfl⟩
    rwa [BitVec.toNat_ofNat, Nat.mod_eq_of_lt hn]
  · exact fun hw => ⟨k.toNat, ⟨k.isLt, hw⟩, hk⟩

theorem pairwise_assertedModes (words : List (BitVec 16)) : (assertedModes words).Pairwise (· < ·) := by
  have hsorted := (List.pairwise_lt_range (n := 16)).filter fun k => words.any fun w => w.getLsbD k
  refine List.pairwise_map.2 (hsorted.imp_of_mem fun ha hb hlt => ?_)
  have ha := List.mem_range.1 (List.mem_of_mem_filter ha)
  have hb := List.mem_range.1 (List.mem_of_mem_filter hb)
  rw [BitVec.lt_def, BitVec.toNat_ofNat, BitVec.toNat_ofNat, Nat.mod_eq_of_lt ha, Nat.mod_eq_of_lt hb]
  exact hlt

theorem decodeInfoModeCombos_of_length_ne (mode : LogicalMode) {p : List Byte} (h : p.length ≠ 1) :
    decodeInfoModeCombos mode p = .infoModeCombos mode (comboWords p) (assertedModes (comboWords p)) :=
  if_neg h

/-- Settles O30: the INFO record with the words and the asserted modes. -/
theorem infoModeCombosCompletes : Obligations.InfoModeCombosCompletes := by
  refine ⟨fun sc wire plus8 p chk s hlen => ?_, fun sc wire plus8 b chk s => receive_infoFrame ..⟩
  refine ⟨comboWords p, assertedModes (comboWords p), length_comboWords p, fun i => getElem?_comboWords,
    mem_assertedModes _, pairwise_assertedModes _, ?_⟩
  rw [← logicalMode_eq, ← decodeInfoModeCombos_of_length_ne (logicalMode wire plus8) hlen]
  exact receive_infoFrame ..

theorem decodeInfoFormat_four (mode : LogicalMode) (ds df fig dec : Byte) :
    decodeInfoFormat mode [ds, df, fig, dec] = formatMsg mode ds df fig dec := by
  have hflags : decodeInfoFormat mode [ds, df, fig, dec] =
      .infoFormat mode ds df fig dec (formatFlags ds df).1 (formatFlags ds df).2 := rfl
  rw [hflags, formatFlags_eq]
  rfl

theorem decodeInfoFormat_of_length_ne (mode : LogicalMode) {p : List Byte} (h : p.length ≠ 4) :
    decodeInfoFormat mode p = .malformed .infoFormat p := if_neg h

/-- Settles O31: the INFO record with the message of `decodeInfoFormat`. -/
theorem infoFormatCompletes : Obligations.InfoFormatCompletes := by
  refine ⟨fun sc wire plus8 ds df fig dec chk s => ?_, fun sc wire plus8 p chk s hlen => ?_⟩
  · rw [← logicalMode_eq, ← decodeInfoFormat_four]
    exact receive_infoFrame ..
  · rw [← decodeInfoFormat_of_length_ne (logicalMode wire plus8) hlen]
    exact receive_infoFrame ..

/-- Settles O32: the INFO record with the marker. -/
theorem infoUnsupportedCompletes : Obligations.InfoUnsupportedCompletes := by
  intro sc wire plus8 id p chk s
  rw [← logicalMode_eq]
  exact receive_infoFrame ..

end Sys2Proof.Machine

/-! SUPPORT. The laws of the checksum, the outcomes of `build_frame`, and what a built message decodes to
when its bytes come alone (30_encoding.md section 6, 45_tx_encoder.md R252 to R260). -/

namespace Sys2Proof.Machine

open Sys2Proof.Safety
open Sys2Proof.Laws.EncodedSize (categoryOf_headerByte sizeField_headerByte)

/-! ### The checksum -/

theorem checksum_perm {a b : List Byte} (h : a.Perm b) : checksum a = checksum b :=
  h.foldl_eq' (fun x _ y _ z => by rw [BitVec.xor_assoc, BitVec.xor_comm x, ← BitVec.xor_assoc]) _

/-- A byte adds itself, wherever it stands. -/
theorem checksum_insert (pre post : List Byte) (b : Byte) :
    checksum (pre ++ b :: post) = checksum (pre ++ post) ^^^ b := by
  rw [← checksum_concat]
  exact checksum_perm (List.perm_middle.trans (List.perm_append_singleton b (pre ++ post)).symm)

theorem foldl_xor_start (a : Byte) (bs : List Byte) :
    bs.foldl (· ^^^ ·) a = a ^^^ bs.foldl (· ^^^ ·) 0 := by
  induction bs generalizing a with
  | nil => simp
  | cons b bs ih =>
    have hzero : (0 : Byte) ^^^ b = b := BitVec.zero_xor
    rw [List.foldl_cons, List.foldl_cons, hzero, ih, ih b, BitVec.xor_assoc]

/-- Changing a byte by a mask changes the checksum by the mask. -/
theorem checksum_flip (pre post : List Byte) (b mask : Byte) :
    checksum (pre ++ (b ^^^ mask) :: post) = checksum (pre ++ b :: post) ^^^ mask := by
  rw [checksum_insert, checksum_insert, BitVec.xor_assoc]

theorem checksum_last_iff (bs : List Byte) (c : Byte) :
    (bs ++ [c]).foldl (· ^^^ ·) 0 = 0xFF ↔ c = checksum bs := by
  rw [List.foldl_append, checksum, foldl_xor_start 0xFF#8 bs]
  generalize bs.foldl (· ^^^ ·) (0 : Byte) = x
  simp only [List.foldl_cons, List.foldl_nil]
  constructor
  · intro h
    rw [← BitVec.zero_xor (x := c), ← BitVec.xor_self (x := x), BitVec.xor_assoc, h, BitVec.xor_comm]
    rfl
  · rintro rfl
    rw [BitVec.xor_comm, BitVec.xor_assoc, BitVec.xor_self, BitVec.xor_zero]
    rfl

/-- Settles O7: exclusive-or is commutative and associative, and each byte is its own inverse. -/
theorem checksumLaws : Obligations.ChecksumLaws := by
  refine ⟨fun _ _ => checksum_perm, checksum_concat, checksum_last_iff,
    fun pre post b k _ => checksum_flip pre post b _, fun pre mid post b c k _ => ?_⟩
  rw [checksum_flip (pre ++ (b ^^^ 1 <<< k) :: mid) post c, List.append_assoc, List.cons_append,
    checksum_flip pre (mid ++ c :: post) b, BitVec.xor_assoc, BitVec.xor_self, BitVec.xor_zero,
    List.append_assoc, List.cons_append]

/-! ### The frame builder -/

theorem knownSubtypeId_iff :
    ∀ id : Byte, knownSubtypeId id = true ↔ id ∈ [0, 1, 2, 3, 4, 5, 6, (0x80 : Byte)] := by
  decide

/-- The range test is that of 45_tx_encoder.md R257. -/
theorem targetInRange_iff (t : FrameTarget) : targetInRange t = true ↔ TargetOk t := by
  cases t with
  | cmd | data => exact decide_eq_true_iff
  | info mode id =>
    simp only [targetInRange, TargetOk, Bool.and_eq_true, decide_eq_true_eq, knownSubtypeId_iff]

theorem cat_ne_sys (t : FrameTarget) : t.cat ≠ .sys := by
  cases t <;> exact nofun

theorem wireField_le {t : FrameTarget} (h : TargetOk t) : wireField t ≤ 7 := by
  cases t with
  | cmd | data => exact h
  | info mode id =>
    obtain ⟨hmode, -⟩ := h
    rw [wireField]
    split <;> omega

theorem buildFrame_of_not_targetOk {t : FrameTarget} (p : List Byte) (h : ¬ TargetOk t) :
    buildFrame t p = .error .fieldOutOfRange := by
  rw [buildFrame, Bool.eq_false_iff.2 (mt (targetInRange_iff t).1 h), require_false]

theorem buildFrame_of_size {t : FrameTarget} {p : List Byte} (h : TargetOk t)
    (hsize : p.length = 0 ∨ 32 < p.length) : buildFrame t p = .error (.sizeOutOfRange p.length) := by
  rw [buildFrame, (targetInRange_iff t).2 h, require_true,
    encodeHeader_of_size_out_of_range (cat_ne_sys t) (wireField_le h) hsize]

/-- The header of a frame of size class `sc` for a target. -/
def targetHeader (t : FrameTarget) (sc : Field3) : Byte :=
  headerByte t.cat sc (BitVec.ofNat 3 (wireField t))

/-- A call in range builds the frame of the least size class. -/
theorem buildFrame_of_targetOk {t : FrameTarget} {p : List Byte} (h : TargetOk t) (hpos : 1 ≤ p.length)
    (hle : p.length ≤ 32) : ∃ sc, IsLeastSizeClass p.length sc ∧
      buildFrame t p = .ok (builtRaw t (targetHeader t sc) p).bytes := by
  obtain ⟨sc, hsc⟩ := exists_leastSizeClass hle
  refine ⟨sc, isLeastSizeClass_of_leastSizeClass hsc, ?_⟩
  rw [buildFrame, (targetInRange_iff t).2 h, require_true,
    encodeHeader_of_leastSizeClass (cat_ne_sys t) (wireField_le h) hpos hle hsc]
  cases t <;> rfl

theorem isLeast_targetHeader {n : Nat} {sc : Field3} (t : FrameTarget) (h : IsLeastSizeClass n sc) :
    IsLeastSizeClass n (sizeField (targetHeader t sc)) := by
  rwa [targetHeader, sizeField_headerByte]

theorem length_builtRaw (t : FrameTarget) (h : Byte) (p : List Byte) :
    (builtRaw t h p).bytes.length = (padTo h p).length + overhead t.cat := by
  cases t <;> simp [builtRaw, RawFrame.bytes, overhead, FrameTarget.cat]

/-- Settles O9: the range test, the header's size test, and the frame of the least size class. -/
theorem buildFrameOutcomes : Obligations.BuildFrameOutcomes := by
  refine ⟨fun t p => buildFrame_of_not_targetOk p, fun t p => buildFrame_of_size, fun t p h hpos hle => ?_⟩
  obtain ⟨sc, hleast, hbuilt⟩ := buildFrame_of_targetOk h hpos hle
  exact ⟨_, _, hbuilt, paddedTo_padTo (isLeast_targetHeader t hleast), length_builtRaw ..⟩

/-! ### Padding -/

/-- The size class and the number of zeros are determined by the payload's length. -/
theorem paddedTo_unique {raw p q : List Byte} (hp : PaddedTo raw p) (hq : PaddedTo raw q) : p = q := by
  obtain ⟨k, sc, rfl, hlen, -, hleast⟩ := hp
  obtain ⟨k', sc', rfl, hlen', -, hleast'⟩ := hq
  simp only [List.length_append, List.length_replicate] at hlen hlen'
  have hsc : sc = sc' := by
    rcases Nat.lt_trichotomy sc sc' with hlt | heq | hgt
    · have hbig := hleast' sc hlt
      omega
    · exact heq
    · have hbig := hleast sc' hgt
      omega
  subst hsc
  have hk : k = k' := by omega
  rw [hk]

/-- A payload whose length is a power of two is not padded. -/
theorem paddedTo_eq_self {raw p : List Byte} {n : Nat} (hp : PaddedTo raw p) (hn : raw.length = 2 ^ n) :
    p = raw := by
  obtain ⟨k, sc, rfl, hlen, -, hleast⟩ := hp
  simp only [List.length_append, List.length_replicate] at hlen
  have hsc : sc ≤ n := Nat.le_of_not_lt fun hlt => by
    have hbig := hleast n hlt
    omega
  have hpow : 2 ^ sc ≤ 2 ^ n := Nat.pow_le_pow_right (by decide) hsc
  have hk : k = 0 := by omega
  rw [hk, List.replicate_zero, List.append_nil]

/-! ### What a built frame's message is -/

/-- The message that the payload of a frame for this target decodes to. -/
def targetMsg (t : FrameTarget) (q : List Byte) : Msg :=
  match t with
  | .cmd code => decodeCmdPayload (BitVec.ofNat 3 code) q
  | .info mode id => decodeInfoById id (BitVec.ofNat 4 mode) q
  | .data mode => decodeData (BitVec.ofNat 3 mode) q

theorem getLsbD_of_knownSubtypeId : ∀ id : Byte, knownSubtypeId id = true → id.getLsbD 5 = false := by decide

theorem msg_builtRaw {t : FrameTarget} (sc : Field3) (p : List Byte) (acc : Byte) (h : TargetOk t) :
    (frameRecord (builtRaw t (targetHeader t sc) p) acc).msg = targetMsg t (padTo (targetHeader t sc) p) := by
  cases t with
  | cmd | data =>
    simp only [targetHeader, frameRecord, builtRaw, FrameTarget.cat, decodePayload, categoryOf_headerByte,
      codeField_headerByte, wireField, targetMsg]
  | info mode id =>
    obtain ⟨hmode, hid⟩ := h
    have hbit := getLsbD_of_knownSubtypeId id ((knownSubtypeId_iff id).2 hid)
    simp only [targetHeader, frameRecord, builtRaw, FrameTarget.cat, decodePayload, categoryOf_headerByte,
      codeField_headerByte, decodeInfoPayload_subtypeByte _ _ _ hbit, logicalMode_wireField id hmode,
      targetMsg]

/-- A message built as one frame comes back as what its padded payload decodes to (45_tx_encoder.md
R260). -/
theorem comesBackAs_of_buildFrame {spec : MsgSpec} {msg : Msg} {t : FrameTarget} {p : List Byte}
    (h : TargetOk t) (hpos : 1 ≤ p.length) (hle : p.length ≤ 32)
    (hbuild : ∀ bs, buildFrame t p = .ok bs → ∃ b, buildMsg spec = .ok b ∧ b.bytes = bs)
    (hmsg : ∀ q, PaddedTo p q → targetMsg t q = msg) : ComesBackAs spec msg := by
  obtain ⟨sc, hleast, hbuilt⟩ := buildFrame_of_targetOk h hpos hle
  obtain ⟨b, hb, hbytes⟩ := hbuild _ hbuilt
  have hleast := isLeast_targetHeader t hleast
  have hw : (builtRaw t (targetHeader t sc) p).WellFormed :=
    wellFormed_builtRaw (categoryOf_headerByte ..) hleast
  refine ⟨b, _, hb, hbytes ▸ decodeStream_bytes hw, chkFault_builtRaw .., ?_⟩
  rw [msg_builtRaw sc p _ h, hmsg _ (paddedTo_padTo hleast)]

/-- The same for a build without warnings. -/
theorem comesBackAs_of_buildPlain {spec : MsgSpec} {msg : Msg} {t : FrameTarget} {p : List Byte}
    (hspec : buildMsg spec = buildPlain t p) (h : TargetOk t) (hpos : 1 ≤ p.length) (hle : p.length ≤ 32)
    (hmsg : ∀ q, PaddedTo p q → targetMsg t q = msg) : ComesBackAs spec msg :=
  comesBackAs_of_buildFrame h hpos hle
    (fun bs hbs => ⟨{ bytes := bs }, by rw [hspec, buildPlain, hbs], rfl⟩) hmsg

/-- The same for a payload whose length is a power of two. -/
theorem comesBackAs_of_pow_two {spec : MsgSpec} {msg : Msg} {t : FrameTarget} {p : List Byte} {n : Nat}
    (hspec : buildMsg spec = buildPlain t p) (h : TargetOk t) (hn : n ≤ 5) (hlen : p.length = 2 ^ n)
    (hmsg : targetMsg t p = msg) : ComesBackAs spec msg := by
  have hpos : 1 ≤ p.length := hlen ▸ Nat.one_le_two_pow
  have hle : p.length ≤ 2 ^ 5 := hlen ▸ Nat.pow_le_pow_right (by decide) hn
  exact comesBackAs_of_buildPlain hspec h hpos hle fun q hq => by rw [paddedTo_eq_self hq hlen, hmsg]

theorem require_of_true {α : Type} {ok : Bool} (c : Condition) (k : Except Condition α) (h : ok = true) :
    require ok c k = k := by
  rw [h, require_true]

theorem require_of_false {α : Type} {ok : Bool} (c : Condition) (k : Except Condition α) (h : ok = false) :
    require ok c k = .error c := by
  rw [h, require_false]

/-! ### Multi-byte fields -/

theorem length_leBytes (n v : Nat) : (leBytes n v).length = n := by
  induction n generalizing v with
  | zero => rfl
  | succ n ih => rw [leBytes, List.length_cons, ih]

/-- Reading back the low bytes of a value (20_memory.md R65). -/
theorem leValue_leBytes (n v : Nat) : leValue (leBytes n v) = v % 256 ^ n := by
  induction n generalizing v with
  | zero => rw [leBytes, leValue, Nat.pow_zero, Nat.mod_one]
  | succ n ih =>
    have hmod : v % 256 ^ (n + 1) = v % 256 + 256 * (v / 256 % 256 ^ n) := by
      rw [Nat.pow_succ', Nat.mod_mul]
    rw [leBytes, leValue, ih, BitVec.toNat_ofNat]
    exact hmod.symm

/-! ### SYS and CMD -/

theorem sys_fields : ∀ b, b < 64 → categoryOf (BitVec.ofNat 8 b) = .sys ∧
    codeField (BitVec.ofNat 8 b) = BitVec.ofNat 3 b ∧
    sizeField (BitVec.ofNat 8 b) = BitVec.ofNat 3 (b / 8) := by
  decide

theorem comesBackAs_sys {b : Nat} (hb : b < 64) :
    ComesBackAs (.sys b) (.sys (BitVec.ofNat 3 b) (BitVec.ofNat 3 (b / 8))) := by
  obtain ⟨hcat, hcode, hsize⟩ := sys_fields b hb
  have hw : (RawFrame.single (BitVec.ofNat 8 b)).WellFormed := hcat
  refine ⟨{ bytes := [BitVec.ofNat 8 b] }, _, ?_, decodeStream_bytes hw, rfl, ?_⟩
  · rw [buildMsg, buildSys, buildSysByte, require_of_true _ _ (decide_eq_true hb)]
  · rw [frameRecord, hcode, hsize]

theorem decodeCmdSpeed_leBytes {baud : Nat} (h : baud < 2 ^ 32) :
    decodeCmdSpeed (leBytes 4 baud) = .cmdSpeed (BitVec.ofNat 32 baud) := by
  have hvalue : memRead (leBytes 4 baud) 0 4 = leValue (leBytes 4 baud) := rfl
  have hlt : baud < 256 ^ 4 := h
  rw [decodeCmdSpeed, if_pos (length_leBytes 4 baud), hvalue, leValue_leBytes, Nat.mod_eq_of_lt hlt]

/-- The two nibbles of a version byte (41_cmd.md R155, R156). -/
theorem version_byte {major minor : Nat} (hmajor : major ≤ 15) (hminor : minor ≤ 15) :
    (BitVec.ofNat 8 (major <<< 4 ||| minor)).toNat = 16 * major + minor := by
  rw [← Nat.shiftLeft_add_eq_or_of_lt (by omega), Nat.shiftLeft_eq, BitVec.toNat_ofNat]
  omega

/-- The two bytes of a 16-bit field give it back, in 16 bits. -/
theorem word_of_leBytes (v : Nat) :
    (BitVec.ofNat 8 (v / 256) ++ BitVec.ofNat 8 v : BitVec 16) = BitVec.ofNat 16 v := by
  have hvalue : leValue [BitVec.ofNat 8 v, BitVec.ofNat 8 (v / 256)] = v % 256 ^ 2 := leValue_leBytes 2 v
  rw [← leValue_two, hvalue]
  apply BitVec.eq_of_toNat_eq
  rw [BitVec.toNat_ofNat, BitVec.toNat_ofNat]
  exact Nat.mod_mod _ _

theorem decodeCmdVersion_versionBytes {fw hw : VersionSpec} (hfw : VersionOk fw) (hhw : VersionOk hw) :
    decodeCmdVersion (versionBytes fw ++ versionBytes hw) =
      .cmdVersion (versionValue fw) (versionValue hw) := by
  obtain ⟨hmajor, hminor, -, -⟩ := hfw
  obtain ⟨hmajor', hminor', -, -⟩ := hhw
  have hbytes (v : VersionSpec) : versionBytes v = [BitVec.ofNat 8 v.build, BitVec.ofNat 8 (v.build / 256),
    BitVec.ofNat 8 v.bugfix, BitVec.ofNat 8 (v.major <<< 4 ||| v.minor)] := rfl
  have hnibbles {major minor : Nat} (h : minor ≤ 15) :
      (16 * major + minor) / 16 = major ∧ (16 * major + minor) % 16 = minor := by omega
  rw [hbytes, hbytes]
  refine (decodeCmdVersion_eight ..).trans ?_
  rw [version_byte hmajor hminor, version_byte hmajor' hminor', word_of_leBytes, word_of_leBytes,
    (hnibbles hminor).1, (hnibbles hminor).2, (hnibbles hminor').1, (hnibbles hminor').2]
  rfl

/-- A count comes back from its byte (41_cmd.md R143, R144). -/
theorem count_of_byte {c : Nat} (hpos : 1 ≤ c) (hle : c ≤ 256) : (BitVec.ofNat 8 (c - 1)).toNat + 1 = c := by
  rw [BitVec.toNat_ofNat]
  omega

theorem decodeCmdModes_counts {counts : List Nat} (hlen : counts.length ∈ [1, 2, 4])
    (hrange : ∀ c ∈ counts, 1 ≤ c ∧ c ≤ 256) :
    decodeCmdModes (counts.map fun c => BitVec.ofNat 8 (c - 1)) =
      .cmdModes (counts.map (BitVec.ofNat 9)) := by
  rw [decodeCmdModes_of_length_mem (by rwa [List.length_map]), List.map_map]
  refine congrArg Msg.cmdModes (List.map_congr_left fun c hc => ?_)
  obtain ⟨hpos, hle⟩ := hrange c hc
  exact congrArg _ (count_of_byte hpos hle)

/-- The range test of MODES encode (41_cmd.md R144). -/
theorem buildCmdModes_of_range {counts : List Nat} (hpos : 1 ≤ counts.length) (hle : counts.length ≤ 4)
    (hrange : ∀ c ∈ counts, 1 ≤ c ∧ c ≤ 256) :
    buildMsg (.cmdModes counts) = buildPlain (.cmd 1) (counts.map fun c => BitVec.ofNat 8 (c - 1)) :=
  require_of_true _ _ (by simpa [hpos, hle] using hrange)

theorem versionInRange_iff (v : VersionSpec) : versionInRange v = true ↔ VersionOk v := by
  simp only [versionInRange, VersionOk, Bool.and_eq_true, decide_eq_true_eq, and_assoc]

theorem targetOk_cmd {code : Nat} (h : code ≤ 7) : TargetOk (.cmd code) := h

/-- Settles O11: each payload has a length that its size class holds exactly, and decodes to the values
sent. -/
theorem sysAndCmdRoundTrip : Obligations.SysAndCmdRoundTrip := by
  refine ⟨fun b => comesBackAs_sys, fun t ht => ?type, fun baud hbaud => ?speed, fun fw hw hfw hhw => ?version,
    fun counts hlen hrange => ?modes⟩
  case type =>
    exact comesBackAs_of_pow_two (n := 0) (require_of_true _ _ (decide_eq_true ht)) (targetOk_cmd (by decide))
      (by decide) rfl rfl
  case speed =>
    exact comesBackAs_of_pow_two (n := 2) (require_of_true _ _ (decide_eq_true hbaud))
      (targetOk_cmd (by decide)) (by decide) rfl (decodeCmdSpeed_leBytes hbaud)
  case version =>
    have htest : (versionInRange fw && versionInRange hw) = true := by
      rw [(versionInRange_iff fw).2 hfw, (versionInRange_iff hw).2 hhw, Bool.and_self]
    exact comesBackAs_of_pow_two (n := 3) (require_of_true _ _ htest) (targetOk_cmd (by decide)) (by decide)
      rfl (decodeCmdVersion_versionBytes hfw hhw)
  case modes =>
    obtain ⟨n, hn, hlen'⟩ : ∃ n, n ≤ 2 ∧ counts.length = 2 ^ n := by
      simp only [List.mem_cons, List.not_mem_nil, or_false] at hlen
      rcases hlen with h | h | h
      · exact ⟨0, by decide, h⟩
      · exact ⟨1, by decide, h⟩
      · exact ⟨2, by decide, h⟩
    have hpos : 1 ≤ counts.length := hlen' ▸ Nat.one_le_two_pow
    have hle : counts.length ≤ 2 ^ 2 := hlen' ▸ Nat.pow_le_pow_right (by decide) hn
    exact comesBackAs_of_pow_two (buildCmdModes_of_range hpos hle hrange) (targetOk_cmd (by decide))
      (hn.trans (by decide)) (by rwa [List.length_map]) (decodeCmdModes_counts hlen hrange)

/-! ### The raw kinds -/

/-- Settles O14: the message is the padded payload, whatever the kind. -/
theorem rawKindsRoundTrip : Obligations.RawKindsRoundTrip := by
  intro raw hpos hle
  obtain ⟨-, -, hbuild⟩ := buildFrameOutcomes
  obtain ⟨-, p, -, hp, -⟩ := hbuild (.cmd 3) raw (targetOk_cmd (by decide)) hpos hle
  have hback {spec : MsgSpec} {t : FrameTarget} {msg : List Byte → Msg} (hspec : buildMsg spec = buildPlain t raw)
      (ht : TargetOk t) (hmsg : ∀ q, targetMsg t q = msg q) : ComesBackAs spec (msg p) :=
    comesBackAs_of_buildPlain hspec ht hpos hle fun q hq => by rw [hmsg, paddedTo_unique hq hp]
  exact ⟨p, hp, hback rfl (targetOk_cmd (by decide)) fun _ => rfl,
    hback rfl (targetOk_cmd (by decide)) fun _ => rfl, hback rfl (targetOk_cmd (by decide)) fun _ => rfl,
    hback rfl (targetOk_cmd (by decide)) fun _ => rfl, fun mode hmode => hback rfl hmode fun _ => rfl,
    fun ⟨n, hn⟩ => paddedTo_eq_self hp hn⟩

end Sys2Proof.Machine

/-! SUPPORT. The INFO messages there and back: ranges, FORMAT, MAPPING, texts and mode sets, with the
warnings their builders return (42_info.md, 45_tx_encoder.md R260). -/

namespace Sys2Proof.Machine

open Sys2Proof.Safety

theorem targetOk_info {mode : Nat} {id : Byte} (hmode : mode ≤ 15) (hid : knownSubtypeId id = true) :
    TargetOk (.info mode id) := ⟨hmode, (knownSubtypeId_iff id).1 hid⟩

/-! ### Ranges -/

theorem pattern_of_leBytes (v : BitVec 32) : BitVec.ofNat 32 (leValue (leBytes 4 v.toNat)) = v := by
  have hlt : v.toNat < 256 ^ 4 := v.isLt
  rw [leValue_leBytes, Nat.mod_eq_of_lt hlt, BitVec.ofNat_toNat, BitVec.setWidth_eq]

/-- The payload of a range, written field by field (42_info.md R181). -/
def rangePayload (lo hi : BitVec 32) : List Byte :=
  memWrite (memWrite (zeros 8) 0 4 lo.toNat) 4 4 hi.toNat

theorem decodeRange_rangePayload (lo hi : BitVec 32) : decodeRange (rangePayload lo hi) = some (lo, hi) := by
  have hlow : memRead (rangePayload lo hi) 0 4 = leValue (leBytes 4 lo.toNat) := rfl
  have hhigh : memRead (rangePayload lo hi) 4 4 = leValue (leBytes 4 hi.toNat) := rfl
  have hlen : (rangePayload lo hi).length = 8 := rfl
  rw [decodeRange, if_pos hlen, hlow, hhigh, pattern_of_leBytes, pattern_of_leBytes]

theorem decodeInfoRaw_of_range {p : List Byte} {lo hi : BitVec 32} (mode : LogicalMode)
    (h : decodeRange p = some (lo, hi)) : decodeInfoRaw mode p = .infoRaw mode lo hi := by
  simp only [decodeInfoRaw, h]

theorem decodeInfoPct_of_range {p : List Byte} {lo hi : BitVec 32} (mode : LogicalMode)
    (h : decodeRange p = some (lo, hi)) : decodeInfoPct mode p = .infoPct mode lo hi := by
  simp only [decodeInfoPct, h]

theorem decodeInfoSi_of_range {p : List Byte} {lo hi : BitVec 32} (mode : LogicalMode)
    (h : decodeRange p = some (lo, hi)) : decodeInfoSi mode p = .infoSi mode lo hi := by
  simp only [decodeInfoSi, h]

/-! ### FORMAT and MAPPING -/

/-- FORMAT encode with operands in range: the frame and its two flags (42_info.md R197). -/
theorem buildInfoFormat_of_range {mode ds df fig dec : Nat} (hds : ds ≤ 255) (hdf : df ≤ 255)
    (hfig : fig ≤ 255) (hdec : dec ≤ 255) {bs : List Byte}
    (hbs : buildFrame (.info mode 0x80)
      [BitVec.ofNat 8 ds, BitVec.ofNat 8 df, BitVec.ofNat 8 fig, BitVec.ofNat 8 dec] = .ok bs) :
    buildMsg (.infoFormat mode ds df fig dec) = .ok
      { bytes := bs
        sizeViolation := decide (df ≤ 3 ∧ 32 < ds * formatSize df)
        formatReserved := decide (3 < df) } := by
  have hds' : (BitVec.ofNat 8 ds).toNat = ds := Nat.mod_eq_of_lt (Nat.lt_succ_of_le hds)
  have hdf' : (BitVec.ofNat 8 df).toNat = df := Nat.mod_eq_of_lt (Nat.lt_succ_of_le hdf)
  rw [buildMsg, buildInfoFormat, require_of_true _ _ (by simp [hds, hdf, hfig, hdec])]
  simp only [hbs, formatFlags_eq, hds', hdf']

/-- MAPPING encode with operands in range: the frame and its warning (42_info.md R188). -/
theorem buildInfoMapping_of_range {mode : Nat} {i o : FlagArg} (hmode : mode ≤ 15)
    (hi : flagArgInRange i = true) (ho : flagArgInRange o = true) {bs : List Byte}
    (hbs : buildFrame (.info mode 0x05) [(flagByte i).1, (flagByte o).1] = .ok bs) :
    buildMsg (.infoMapping mode (some i) (some o)) = .ok
      { bytes := bs, ambiguousName := (flagByte i).2 || (flagByte o).2 } := by
  rw [buildMsg, buildInfoMapping, require_of_true _ _ (by simp [hmode, optionalFlagInRange, hi, ho])]
  simp only [hbs]

/-- MAPPING comes back with the two flag bytes. -/
theorem comesBackAs_infoMapping {mode : Nat} {i o : FlagArg} (hmode : mode ≤ 15)
    (hi : flagArgInRange i = true) (ho : flagArgInRange o = true) :
    ComesBackAs (.infoMapping mode (some i) (some o))
      (.infoMapping (BitVec.ofNat 4 mode) (flagByte i).1 (flagByte o).1) := by
  refine comesBackAs_of_buildFrame (p := [(flagByte i).1, (flagByte o).1])
    (targetOk_info (id := 0x05) hmode rfl) (by simp) (by simp)
    (fun bs hbs => ⟨_, buildInfoMapping_of_range hmode hi ho hbs, rfl⟩) fun q hq => ?_
  rw [paddedTo_eq_self (n := 1) hq rfl]
  rfl

/-- MAPPING's and FORMAT's encoders alone return a warning (42_info.md R188, R197). -/
theorem buildMsg_warnings {spec : MsgSpec} {b : Built} (h : buildMsg spec = .ok b) :
    (b.ambiguousName = true → ∃ mode i o, spec = .infoMapping mode i o) ∧
    (b.sizeViolation = true ∨ b.formatReserved = true →
      ∃ mode ds df fig dec, spec = .infoFormat mode ds df fig dec) := by
  have hplain {bs : List Byte} (hb : b = { bytes := bs }) :
      b.ambiguousName = false ∧ b.sizeViolation = false ∧ b.formatReserved = false := by
    subst hb
    exact ⟨rfl, rfl, rfl⟩
  have hnone (hb : b.ambiguousName = false ∧ b.sizeViolation = false ∧ b.formatReserved = false)
      {P Q : Prop} : (b.ambiguousName = true → P) ∧ (b.sizeViolation = true ∨ b.formatReserved = true → Q) := by
    simp [hb]
  cases spec with
  | sys v =>
    rw [buildMsg, buildSys] at h
    split at h <;> cases h
    exact hnone ⟨rfl, rfl, rfl⟩
  | cmdType | cmdModes | cmdSpeed | cmdVersion | infoModeCombos =>
    obtain ⟨-, h⟩ := require_ok _ _ _ _ h
    obtain ⟨bs, -, hb⟩ := buildPlain_ok _ _ _ h
    exact hnone (hplain hb)
  | cmdSelect | cmdWrite | cmdUnk1 | cmdExtMode | infoRaw | infoPct | infoSi | data =>
    obtain ⟨bs, -, hb⟩ := buildPlain_ok _ _ _ h
    exact hnone (hplain hb)
  | infoName | infoUnits =>
    obtain ⟨-, p, bs, -, -, hb⟩ := buildText_ok _ _ _ _ _ h
    exact hnone (hplain hb)
  | infoMapping mode i o =>
    refine ⟨fun _ => ⟨mode, i, o, rfl⟩, ?_⟩
    obtain ⟨-, h⟩ := require_ok _ _ _ _ h
    split at h
    · split at h <;> cases h
      simp
    · cases h
  | infoFormat mode ds df fig dec =>
    refine ⟨?_, fun _ => ⟨mode, ds, df, fig, dec, rfl⟩⟩
    obtain ⟨-, h⟩ := require_ok _ _ _ _ h
    split at h <;> cases h
    simp

/-- Settles O12: each payload has a length that its size class holds exactly, and decodes to the values
sent. -/
theorem infoRoundTrip : Obligations.InfoRoundTrip := by
  refine ⟨fun mode hmode => ⟨fun lo hi => ?raw, fun lo hi => ?pct, fun lo hi => ?si,
    fun i o hi ho => ?mapping, fun ds df fig dec hds hdf hfig hdec => ?format⟩,
    fun spec b hb hflag => (buildMsg_warnings hb).2 hflag⟩
  case raw =>
    exact comesBackAs_of_pow_two (n := 3) (p := rangePayload lo hi) rfl (targetOk_info hmode rfl) (by decide)
      rfl (decodeInfoRaw_of_range _ (decodeRange_rangePayload lo hi))
  case pct =>
    exact comesBackAs_of_pow_two (n := 3) (p := rangePayload lo hi) rfl (targetOk_info hmode rfl) (by decide)
      rfl (decodeInfoPct_of_range _ (decodeRange_rangePayload lo hi))
  case si =>
    exact comesBackAs_of_pow_two (n := 3) (p := rangePayload lo hi) rfl (targetOk_info hmode rfl) (by decide)
      rfl (decodeInfoSi_of_range _ (decodeRange_rangePayload lo hi))
  case mapping =>
    exact comesBackAs_infoMapping hmode (decide_eq_true (Nat.lt_succ_of_le hi))
      (decide_eq_true (Nat.lt_succ_of_le ho))
  case format =>
    have hok : TargetOk (.info mode 0x80) := targetOk_info hmode rfl
    obtain ⟨sc, -, hbuilt⟩ := buildFrame_of_targetOk hok
      (p := [BitVec.ofNat 8 ds, BitVec.ofNat 8 df, BitVec.ofNat 8 fig, BitVec.ofNat 8 dec])
      (by simp) (by simp)
    refine ⟨comesBackAs_of_buildFrame hok (by simp) (by simp)
      (fun bs hbs => ⟨_, buildInfoFormat_of_range hds hdf hfig hdec hbs, rfl⟩) fun q hq => ?_,
      _, buildInfoFormat_of_range hds hdf hfig hdec hbuilt, rfl, rfl⟩
    rw [paddedTo_eq_self (n := 2) hq rfl]
    exact decodeInfoFormat_four _ _ _ _ _

/-! ### Texts -/

theorem textInRange_iff (text : List Byte) : textInRange text = true ↔ AsciiText text := by
  have hbyte : ∀ b : Byte, (b != 0 && decide (b.toNat ≤ 0x7F)) = true ↔ 1 ≤ b.toNat ∧ b.toNat ≤ 127 := by
    decide
  simp only [textInRange, AsciiText, List.all_eq_true, hbyte]

theorem ne_zero_of_asciiText {text : List Byte} (h : AsciiText text) {b : Byte} (hb : b ∈ text) : b ≠ 0 := by
  rintro rfl
  obtain ⟨hpos, -⟩ := h 0 hb
  cases hpos

theorem getLast?_ne_zero_of_asciiText {text : List Byte} (h : AsciiText text) : text.getLast? ≠ some 0 :=
  fun hlast => ne_zero_of_asciiText h (List.mem_of_getLast? hlast) rfl

theorem getElem?_ne_zero_of_asciiText {text : List Byte} (h : AsciiText text) (j : Nat) :
    text[j]? ≠ some 0 :=
  fun hj => ne_zero_of_asciiText h (List.mem_of_getElem? hj) rfl

theorem encodeText_plain {text : List Byte} (h : AsciiText text) (hlen : text.length ≤ 11) :
    encodeText text none = .ok (if text.isEmpty then [0] else text) := by
  rw [encodeText, require_of_true _ _ ((textInRange_iff text).2 h)]
  exact require_of_true _ _ (decide_eq_true (Nat.lt_succ_of_le hlen))

theorem encodeText_flags {text fl : List Byte} (h : AsciiText text) (hfl : fl.length = 6)
    (hlen : text.length ≤ 5) : encodeText text (some fl) = .ok (text ++ [0] ++ fl) := by
  rw [encodeText, require_of_true _ _ ((textInRange_iff text).2 h)]
  rw [require_of_true _ _ (beq_iff_eq.2 hfl), require_of_true _ _ (decide_eq_true (Nat.lt_succ_of_le hlen))]

theorem length_flagsPayload (text : List Byte) {fl : List Byte} (hfl : fl.length = 6) :
    (text ++ [0] ++ fl).length = text.length + 7 := by
  rw [List.length_append, List.length_append, hfl, List.length_singleton]

/-- A text message in range is built as the frame of its encoded text. -/
theorem buildText_of_encodeText {mode : Nat} (id : Byte) {text p : List Byte} {flags : Option (List Byte)}
    (hmode : mode ≤ 15) (h : encodeText text flags = .ok p) :
    buildText id mode text flags = buildPlain (.info mode id) p := by
  rw [buildText, require_of_true _ _ (decide_eq_true hmode), h]

/-- NAME and UNITS come back with what their padded payload decodes to as a text (42_info.md R184). -/
theorem comesBackAs_text {mode : Nat} {text t p : List Byte} {flags fl : Option (List Byte)}
    (hmode : mode ≤ 15) (henc : encodeText text flags = .ok p) (hpos : 1 ≤ p.length) (hle : p.length ≤ 32)
    (hdec : ∀ q, PaddedTo p q → decodeText q = (t, fl)) :
    ComesBackAs (.infoName mode text flags) (.infoName (BitVec.ofNat 4 mode) t fl) ∧
    ComesBackAs (.infoUnits mode text flags) (.infoUnits (BitVec.ofNat 4 mode) t fl) := by
  have hname (q : List Byte) (hq : PaddedTo p q) :
      targetMsg (.info mode 0x00) q = .infoName (BitVec.ofNat 4 mode) t fl := by
    have hmsg : targetMsg (.info mode 0x00) q =
        .infoName (BitVec.ofNat 4 mode) (decodeText q).1 (decodeText q).2 := rfl
    rw [hmsg, hdec q hq]
  have hunits (q : List Byte) (hq : PaddedTo p q) :
      targetMsg (.info mode 0x04) q = .infoUnits (BitVec.ofNat 4 mode) t fl := by
    have hmsg : targetMsg (.info mode 0x04) q =
        .infoUnits (BitVec.ofNat 4 mode) (decodeText q).1 (decodeText q).2 := rfl
    rw [hmsg, hdec q hq]
  exact ⟨comesBackAs_of_buildPlain (buildText_of_encodeText 0x00 hmode henc) (targetOk_info hmode rfl) hpos hle
      hname,
    comesBackAs_of_buildPlain (buildText_of_encodeText 0x04 hmode henc) (targetOk_info hmode rfl) hpos hle
      hunits⟩

/-- A plain text and zeros after it: stripped as a whole, or with no zero among the first six bytes. -/
theorem decodeText_plain_padded {text : List Byte} (k : Nat) (h : AsciiText text)
    (hlen : (text ++ List.replicate k 0).length ≤ 12 ∨ 6 ≤ text.length) :
    decodeText (text ++ List.replicate k 0) = (text, none) := by
  have hplain : (text ++ List.replicate k 0).length ≤ 12 ∨
      zeroInFirstSix (text ++ List.replicate k 0) = none := by
    refine hlen.imp_right fun hsix => (zeroInFirstSix_eq_none_iff _).2 fun j hj => ?_
    rw [List.getElem?_append_left (hj.trans_le hsix)]
    exact getElem?_ne_zero_of_asciiText h j
  rw [decodeText_of_plain hplain, stripTrailingZeros_append_zeros k (getLast?_ne_zero_of_asciiText h)]

/-- A text, a zero and six flag bytes, in more than 12 bytes, are recognised (42_info.md R174). -/
theorem decodeText_flags_padded {text fl : List Byte} (k : Nat) (h : AsciiText text) (hfl : fl.length = 6)
    (htext : text.length ≤ 5) (hlen : 12 < (text ++ [0] ++ fl ++ List.replicate k 0).length) :
    decodeText (text ++ [0] ++ fl ++ List.replicate k 0) = (text, some fl) := by
  have hsplit : text ++ [0] ++ fl ++ List.replicate k 0 = text ++ 0 :: (fl ++ List.replicate k 0) := by
    simp only [List.append_assoc, List.cons_append, List.nil_append]
  rw [hsplit] at hlen ⊢
  have hzero : zeroInFirstSix (text ++ 0 :: (fl ++ List.replicate k 0)) = some text.length := by
    refine (zeroInFirstSix_eq_some_iff _ _).2 ⟨Nat.lt_succ_of_le htext, by simp, fun j hj => ?_⟩
    rw [List.getElem?_append_left hj]
    exact getElem?_ne_zero_of_asciiText h j
  have hdrop : (text ++ 0 :: (fl ++ List.replicate k 0)).drop (text.length + 1) =
      fl ++ List.replicate k 0 := by
    rw [← List.drop_drop, List.drop_left, List.drop_one, List.tail_cons]
  rw [decodeText_of_flags hzero hlen, hdrop, List.take_left, ← hfl, List.take_left]

/-- A padded length is one of the six payload lengths (30_encoding.md R93). -/
theorem paddedTo_length {raw p : List Byte} (h : PaddedTo raw p) :
    ∃ k, p = raw ++ List.replicate k 0 ∧ p.length ∈ [1, 2, 4, 8, 16, 32] ∧
      (p.length = 1 ∨ p.length < 2 * raw.length) := by
  obtain ⟨k, sc, hp, hlen, hsc, hleast⟩ := h
  refine ⟨k, hp, ?_, ?_⟩
  · have hpow : ∀ sc, sc ≤ 5 → 2 ^ sc ∈ [1, 2, 4, 8, 16, 32] := by decide
    rw [hlen]
    exact hpow sc hsc
  · cases sc with
    | zero => exact .inl hlen
    | succ sc =>
      have hbig := hleast sc (Nat.lt_succ_self sc)
      rw [Nat.pow_succ] at hlen
      exact .inr (by omega)

/-- Settles O13: the plain text is stripped of its pad bytes, the text with flags is recognised in 16
bytes. -/
theorem textRoundTrip : Obligations.TextRoundTrip := by
  intro mode hmode text h
  refine ⟨fun hlen => ?plain, fun fl hfl hlong hshort => ?flags⟩
  case plain =>
    refine comesBackAs_text hmode (encodeText_plain h hlen) ?_ ?_ fun q hq => ?_
    · cases text <;> simp
    · cases text with
      | nil => decide
      | cons b text => exact hlen.trans (by decide)
    · obtain ⟨k, hpadded, hmem, hless⟩ := paddedTo_length hq
      obtain ⟨k', rfl⟩ : ∃ k', q = text ++ List.replicate k' 0 := by
        cases text with
        | nil => exact ⟨k + 1, hpadded⟩
        | cons b text => exact ⟨k, hpadded⟩
      refine decodeText_plain_padded k' h ?_
      simp only [List.mem_cons, List.not_mem_nil, or_false] at hmem
      cases text with
      | nil =>
        simp only [List.isEmpty_nil, if_true, List.length_singleton] at hless
        omega
      | cons b text =>
        simp only [List.isEmpty_cons, Bool.false_eq_true, if_false] at hless
        omega
  case flags =>
    have hsize := length_flagsPayload text hfl
    refine comesBackAs_text hmode (encodeText_flags h hfl hshort) (by omega) (by omega) fun q hq => ?_
    obtain ⟨k, rfl, hmem, -⟩ := paddedTo_length hq
    refine decodeText_flags_padded k h hfl hshort ?_
    simp only [List.length_append, List.length_singleton, List.length_replicate, hfl, List.mem_cons,
      List.not_mem_nil, or_false] at hmem ⊢
    omega

/-! ### Where the round trip fails -/

/-- Three counts are padded to four bytes, and the pad byte reads as the count 1 (41_cmd.md R144). -/
theorem comesBackAs_three_counts {a b c : Nat} (ha : 1 ≤ a ∧ a ≤ 256) (hb : 1 ≤ b ∧ b ≤ 256)
    (hc : 1 ≤ c ∧ c ≤ 256) : ComesBackAs (.cmdModes [a, b, c])
      (.cmdModes [BitVec.ofNat 9 a, BitVec.ofNat 9 b, BitVec.ofNat 9 c, 1]) := by
  have hrange : ∀ n ∈ [a, b, c], 1 ≤ n ∧ n ≤ 256 := by simp [ha, hb, hc]
  have hone : ∀ n ∈ [a, b, c, 1], 1 ≤ n ∧ n ≤ 256 := by simp [ha, hb, hc]
  refine comesBackAs_of_buildPlain (buildCmdModes_of_range (by simp) (by simp) hrange)
    (targetOk_cmd (by decide)) (by simp) (by simp) fun q hq => ?_
  obtain ⟨k, rfl, hmem, hless⟩ := paddedTo_length hq
  have hk : k = 1 := by
    simp only [List.map_cons, List.map_nil, List.length_append, List.length_cons, List.length_nil,
      List.length_replicate, List.mem_cons, List.not_mem_nil, or_false] at hmem hless
    omega
  subst hk
  exact decodeCmdModes_counts (counts := [a, b, c, 1]) (by simp) hone

/-- Settles O15: the padded payloads have 4 and 8 bytes, too few for a flags suffix (42_info.md R174,
R175). -/
theorem roundTripFailures : Obligations.RoundTripFailures := by
  refine ⟨fun a b c ha ha' hb hb' hc hc' => comesBackAs_three_counts ⟨ha, ha'⟩ ⟨hb, hb'⟩ ⟨hc, hc'⟩,
    fun mode text fl hmode h htext hfl => ?_⟩
  have hsplit : text ++ 0 :: fl ++ List.replicate (1 - text.length) 0 =
      text ++ [0] ++ fl ++ List.replicate (1 - text.length) 0 := by
    rw [List.append_assoc text [0] fl, List.singleton_append]
  have hsize := length_flagsPayload text hfl
  obtain ⟨⟨k, hk⟩, hlast⟩ :=
    stripTrailingZeros_spec (text ++ [0] ++ fl ++ List.replicate (1 - text.length) 0)
  refine ⟨_, k, hk.symm.trans hsplit.symm, hlast,
    comesBackAs_text hmode (encodeText_flags h hfl (by omega)) (by omega) (by omega) fun q hq => ?_⟩
  obtain ⟨k', rfl, hmem, hless⟩ := paddedTo_length hq
  have hlen : k' = 1 - text.length ∧ (text ++ [0] ++ fl ++ List.replicate k' 0).length ≤ 12 := by
    simp only [List.length_append, List.length_singleton, List.length_replicate, hfl, List.mem_cons,
      List.not_mem_nil, or_false] at hmem hless ⊢
    omega
  obtain ⟨rfl, hlen⟩ := hlen
  exact decodeText_of_plain (.inl hlen)

end Sys2Proof.Machine

/-! SUPPORT. Mode sets and MAPPING by names, what each builder refuses and in which order, and what a query
is encoded to (42_info.md R187 to R193, 45_tx_encoder.md R252, R262, R263). -/

namespace Sys2Proof.Machine

open Sys2Proof.Safety

/-! ### Mode sets -/

/-- A word is two bytes of the payload (42_info.md R192). -/
theorem comboWords_cons (a b : Byte) (p : List Byte) :
    comboWords (a :: b :: p) = (b ++ a) :: comboWords p := by
  refine List.ext_getElem? fun i => ?_
  have hlen : (a :: b :: p).length / 2 = p.length / 2 + 1 := by
    simp only [List.length_cons]
    omega
  cases i with
  | zero => exact getElem?_comboWords (p := a :: b :: p) (i := 0) (by omega)
  | succ i =>
    rw [List.getElem?_cons_succ]
    by_cases hi : i < p.length / 2
    · rw [getElem?_comboWords hi, getElem?_comboWords (by omega)]
      rfl
    · rw [List.getElem?_eq_none (by rw [length_comboWords]; omega),
        List.getElem?_eq_none (by rw [length_comboWords]; omega)]

theorem comboWords_zeros (j : Nat) : comboWords (List.replicate (2 * j) 0) = List.replicate j 0 := by
  induction j with
  | zero => rfl
  | succ j ih =>
    have hsplit : List.replicate (2 * (j + 1)) (0 : Byte) = 0 :: 0 :: List.replicate (2 * j) 0 := rfl
    rw [hsplit, comboWords_cons, ih]
    rfl

/-- The words come back, with a zero word for each two pad bytes (42_info.md R193). -/
theorem comboWords_wordsPayload (words : List Nat) (j : Nat) :
    comboWords (wordsPayload words ++ List.replicate (2 * j) 0) =
      words.map (BitVec.ofNat 16) ++ List.replicate j 0 := by
  induction words with
  | nil => exact comboWords_zeros j
  | cons w words ih =>
    have hsplit : wordsPayload (w :: words) ++ List.replicate (2 * j) 0 =
        BitVec.ofNat 8 w :: BitVec.ofNat 8 (w / 256) :: (wordsPayload words ++ List.replicate (2 * j) 0) :=
      rfl
    rw [hsplit, comboWords_cons, ih, word_of_leBytes]
    rfl

theorem length_wordsPayload (words : List Nat) : (wordsPayload words).length = 2 * words.length := by
  induction words with
  | nil => rfl
  | cons w words ih =>
    have hsplit : wordsPayload (w :: words) = leBytes 2 w ++ wordsPayload words := rfl
    rw [hsplit, List.length_append, length_leBytes, ih, List.length_cons]
    omega

/-- Two or more bytes are padded by an even number of zeros. -/
theorem padding_even {raw q : List Byte} {n : Nat} (hraw : raw.length = 2 * n) (hn : 1 ≤ n)
    (h : PaddedTo raw q) : ∃ j, q = raw ++ List.replicate (2 * j) 0 := by
  obtain ⟨k, rfl, hmem, -⟩ := paddedTo_length h
  simp only [List.length_append, List.length_replicate, List.mem_cons, List.not_mem_nil, or_false] at hmem
  refine ⟨k / 2, ?_⟩
  rw [Nat.mul_div_cancel' (by omega)]

/-- The asserted modes are those of the words sent: a zero word asserts none (42_info.md R192). -/
theorem mem_assertedModes_padded (words : List Nat) (j : Nat) (k : LogicalMode) :
    k ∈ assertedModes (words.map (BitVec.ofNat 16) ++ List.replicate j 0) ↔
      ∃ w ∈ words, w.testBit k.toNat = true := by
  have hk : k.toNat < 16 := k.isLt
  have hbit (w : Nat) : (BitVec.ofNat 16 w).getLsbD k.toNat = w.testBit k.toNat := by
    rw [BitVec.getLsbD_ofNat, decide_eq_true hk, Bool.true_and]
  rw [mem_assertedModes]
  constructor
  · rintro ⟨w, hw, hset⟩
    rcases List.mem_append.1 hw with hw | hw
    · obtain ⟨v, hv, rfl⟩ := List.mem_map.1 hw
      exact ⟨v, hv, (hbit v).symm.trans hset⟩
    · obtain rfl := List.eq_of_mem_replicate hw
      cases (BitVec.getLsbD_zero (w := 16)).symm.trans hset
  · rintro ⟨v, hv, hset⟩
    exact ⟨_, List.mem_append_left _ (List.mem_map_of_mem hv), (hbit v).trans hset⟩

theorem buildInfoModeCombos_of_range (mode : Nat) {words : List Nat} (hpos : 1 ≤ words.length)
    (hrange : ∀ w ∈ words, w ≤ 0xFFFF) :
    buildMsg (.infoModeCombos mode words) = buildPlain (.info mode 0x06) (wordsPayload words) :=
  require_of_true _ _ (by simpa [hpos] using hrange)

/-- Settles O17: the padded payload holds the words sent and zero words. -/
theorem modeCombosRoundTrip : Obligations.ModeCombosRoundTrip := by
  intro mode words hmode hpos hle hrange
  have hlen := length_wordsPayload words
  have hok : TargetOk (.info mode 0x06) := targetOk_info hmode rfl
  obtain ⟨-, -, hbuild⟩ := buildFrameOutcomes
  obtain ⟨-, q, -, hq, -⟩ := hbuild _ (wordsPayload words) hok (by omega) (by omega)
  obtain ⟨j, hj⟩ := padding_even hlen hpos hq
  refine ⟨j, _, comesBackAs_of_buildPlain (buildInfoModeCombos_of_range mode hpos hrange) hok (by omega)
    (by omega) fun q' hq' => ?_, mem_assertedModes_padded words j, fun ⟨n, hn⟩ => ?_⟩
  · have hne : q.length ≠ 1 := by
      rw [hj, List.length_append]
      omega
    rw [paddedTo_unique hq' hq]
    refine (decodeInfoModeCombos_of_length_ne (BitVec.ofNat 4 mode) hne).trans ?_
    rw [hj, comboWords_wordsPayload]
  · have hself := paddedTo_eq_self (n := n + 1) hq (by rw [hlen, hn, Nat.pow_succ'])
    have hcount := congrArg List.length (hj.symm.trans hself)
    rw [List.length_append, List.length_replicate] at hcount
    omega

/-! ### MAPPING by names -/

theorem mem_namesOf (b : Byte) (n : MappingName) :
    n ∈ namesOf b ↔ ∃ k, (k, n) ∈ mappingNames ∧ b.getLsbD k = true := by
  simp only [namesOf, List.mem_map, List.mem_filter]
  constructor
  · rintro ⟨⟨k, n'⟩, ⟨hmem, hset⟩, rfl⟩
    exact ⟨k, hmem, hset⟩
  · rintro ⟨k, hmem, hset⟩
    exact ⟨(k, n), ⟨hmem, hset⟩, rfl⟩

theorem flagArgInRange_iff (x : FlagArg) : flagArgInRange x = true ↔ ¬ BadFlagArg (some x) := by
  cases x with
  | byteValue v =>
    rw [flagArgInRange, decide_eq_true_eq]
    exact (Nat.lt_succ_iff.trans Nat.not_lt.symm)
  | names ns =>
    have hname (n : MappingName) : (nameWeight n).isSome = true ↔ ∀ spelling, n ≠ .other spelling := by
      cases n <;> simp [nameWeight]
    simp only [flagArgInRange, List.all_eq_true, hname, BadFlagArg, not_exists]
    exact ⟨fun h spelling hmem => h _ hmem spelling rfl, fun h n hmem spelling heq => h spelling (heq ▸ hmem)⟩

/-- The weight of a name is its bit (42_info.md R187). -/
theorem nameWeight_bit {k : Nat} {name : MappingName} (h : (k, name) ∈ mappingNames) (n : MappingName) :
    ((nameWeight n).getD 0#8).getLsbD k = true ↔ n = name := by
  simp only [mappingNames, List.mem_cons, Prod.mk.injEq, List.not_mem_nil, or_false] at h
  rcases h with ⟨rfl, rfl⟩ | ⟨rfl, rfl⟩ | ⟨rfl, rfl⟩ | ⟨rfl, rfl⟩ | ⟨rfl, rfl⟩ | ⟨rfl, rfl⟩ <;>
    cases n <;> simp [nameWeight]

/-- A named bit of the flag byte is set exactly when its name was given. -/
theorem flagByte_bit_iff {k : Nat} {name : MappingName} (h : (k, name) ∈ mappingNames)
    (ns : List MappingName) : (flagByte (.names ns)).1.getLsbD k = true ↔ name ∈ ns := by
  rw [flagByte_names_bit, List.any_eq_true]
  simp only [nameWeight_bit h, exists_eq_right]

/-- The two bits without a name stay clear (42_info.md R187). -/
theorem flagByte_unnamed_bit {k : Nat} (h : k = 5 ∨ k = 1) (ns : List MappingName) :
    (flagByte (.names ns)).1.getLsbD k = false := by
  rw [flagByte_names_bit, List.any_eq_false]
  rintro n -
  rcases h with rfl | rfl <;> cases n <;> simp [nameWeight]

theorem flagByteOf_flagByte {x : FlagArg} (h : ¬ BadFlagArg (some x)) :
    FlagByteOf x (flagByte x).1 (flagByte x).2 := by
  cases x with
  | byteValue v => exact ⟨Nat.mod_eq_of_lt (Nat.lt_succ_of_le (Nat.not_lt.1 h)), rfl⟩
  | names ns =>
    exact ⟨flagByte_bit_iff (by decide) ns, flagByte_bit_iff (by decide) ns, flagByte_unnamed_bit (.inl rfl) ns,
      flagByte_bit_iff (by decide) ns, flagByte_bit_iff (by decide) ns, flagByte_bit_iff (by decide) ns,
      flagByte_unnamed_bit (.inr rfl) ns, flagByte_bit_iff (by decide) ns, List.contains_iff_mem⟩

/-- The names of a flag byte are the names it was made of. -/
theorem mem_namesOf_flagByte {ns : List MappingName} (h : ¬ BadFlagArg (some (.names ns)))
    (n : MappingName) : n ∈ namesOf (flagByte (.names ns)).1 ↔ n ∈ ns := by
  rw [mem_namesOf]
  constructor
  · rintro ⟨k, hmem, hset⟩
    exact (flagByte_bit_iff hmem ns).1 hset
  · intro hn
    obtain ⟨k, hk⟩ : ∃ k, (k, n) ∈ mappingNames := by
      cases n with
      | null => exact ⟨7, by decide⟩
      | funcMapping2 => exact ⟨6, by decide⟩
      | absolute => exact ⟨4, by decide⟩
      | relative => exact ⟨3, by decide⟩
      | discrete => exact ⟨2, by decide⟩
      | notApplicable => exact ⟨0, by decide⟩
      | other spelling => exact absurd ⟨spelling, hn⟩ h
    exact ⟨k, hk, (flagByte_bit_iff hk ns).2 hn⟩

/-- Each name is in the table once. -/
theorem mappingNames_injective :
    ∀ x ∈ mappingNames, ∀ y ∈ mappingNames, x.2 = y.2 → x.1 = y.1 := by
  decide

theorem mem_namesOf_iff {k : Nat} {name : MappingName} (h : (k, name) ∈ mappingNames) (b : Byte) :
    name ∈ namesOf b ↔ b.getLsbD k = true := by
  rw [mem_namesOf]
  refine ⟨fun ⟨k', h', hset⟩ => ?_, fun hset => ⟨k, h, hset⟩⟩
  have hk : k' = k := mappingNames_injective (k', name) h' (k, name) h rfl
  exact hk ▸ hset

theorem other_not_mem_namesOf (b : Byte) (spelling : String) : MappingName.other spelling ∉ namesOf b := by
  rw [mem_namesOf]
  rintro ⟨k, h, -⟩
  simp [mappingNames] at h

/-- Settles O18: the named bits, both ways, and the frame of the two flag bytes. -/
theorem mappingByNames : Obligations.MappingByNames := by
  refine ⟨fun b => ⟨mem_namesOf_iff (by decide) b, mem_namesOf_iff (by decide) b,
      mem_namesOf_iff (by decide) b, mem_namesOf_iff (by decide) b, mem_namesOf_iff (by decide) b,
      mem_namesOf_iff (by decide) b, other_not_mem_namesOf b⟩,
    fun x => flagByteOf_flagByte, fun ns => mem_namesOf_flagByte, fun mode i o hmode hi ho => ?_,
    fun spec b hb hflag => ?_⟩
  · have hi' := (flagArgInRange_iff i).2 hi
    have ho' := (flagArgInRange_iff o).2 ho
    obtain ⟨sc, -, hbuilt⟩ := buildFrame_of_targetOk (targetOk_info (id := 0x05) hmode rfl)
      (p := [(flagByte i).1, (flagByte o).1]) (by simp) (by simp)
    exact ⟨_, _, _, _, _, flagByteOf_flagByte hi, flagByteOf_flagByte ho,
      buildInfoMapping_of_range hmode hi' ho' hbuilt, rfl, comesBackAs_infoMapping hmode hi' ho'⟩
  · obtain ⟨hmapping, -⟩ := buildMsg_warnings hb
    exact hmapping hflag

/-! ### What the builders refuse (45_tx_encoder.md R252) -/

theorem buildPlain_of_not_targetOk {t : FrameTarget} (p : List Byte) (h : ¬ TargetOk t) :
    buildPlain t p = .error .fieldOutOfRange := by
  rw [buildPlain, buildFrame_of_not_targetOk p h]

theorem buildPlain_of_size {t : FrameTarget} {p : List Byte} (h : TargetOk t)
    (hsize : p.length = 0 ∨ 32 < p.length) : buildPlain t p = .error (.sizeOutOfRange p.length) := by
  rw [buildPlain, buildFrame_of_size h hsize]

theorem not_targetOk_info {mode : Nat} (id : Byte) (h : 15 < mode) : ¬ TargetOk (.info mode id) :=
  fun ⟨hmode, _⟩ => Nat.not_le.2 h hmode

/-- SYS refuses a byte of 64 or more (40_sys.md R133). -/
theorem buildSys_refuses {b : Nat} (h : 64 ≤ b) : buildMsg (.sys b) = .error .fieldOutOfRange := by
  rw [buildMsg, buildSys, buildSysByte, require_of_false _ _ (decide_eq_false (Nat.not_lt.2 h))]

theorem buildCmdModes_refuses {counts : List Nat}
    (h : counts = [] ∨ 4 < counts.length ∨ ∃ c ∈ counts, c = 0 ∨ 256 < c) :
    buildMsg (.cmdModes counts) = .error .fieldOutOfRange := by
  refine require_of_false _ _ (Bool.eq_false_iff.2 fun htest => ?_)
  simp only [Bool.and_eq_true, decide_eq_true_eq, List.all_eq_true] at htest
  obtain ⟨⟨hpos, hle⟩, hrange⟩ := htest
  rcases h with rfl | hlong | ⟨c, hc, hbad⟩
  · cases hpos
  · omega
  · have hc := hrange c hc
    omega

theorem buildInfoFormat_refuses {mode ds df fig dec : Nat}
    (h : 15 < mode ∨ 255 < ds ∨ 255 < df ∨ 255 < fig ∨ 255 < dec) :
    buildMsg (.infoFormat mode ds df fig dec) = .error .fieldOutOfRange := by
  rw [buildMsg, buildInfoFormat]
  by_cases hrange : ds ≤ 255 ∧ df ≤ 255 ∧ fig ≤ 255 ∧ dec ≤ 255
  · obtain ⟨hds, hdf, hfig, hdec⟩ := hrange
    have hmode : 15 < mode := by omega
    rw [require_of_true _ _ (by simp [hds, hdf, hfig, hdec])]
    simp only [buildFrame_of_not_targetOk _ (not_targetOk_info 0x80 hmode)]
  · exact require_of_false _ _ (Bool.eq_false_iff.2 fun htest => hrange (by simpa [and_assoc] using htest))

theorem buildInfoModeCombos_refuses {mode : Nat} {words : List Nat}
    (h : 15 < mode ∨ words = [] ∨ ∃ w ∈ words, 0xFFFF < w) :
    buildMsg (.infoModeCombos mode words) = .error .fieldOutOfRange := by
  by_cases hrange : 1 ≤ words.length ∧ ∀ w ∈ words, w ≤ 0xFFFF
  · obtain ⟨hpos, hwords⟩ := hrange
    rw [buildInfoModeCombos_of_range mode hpos hwords]
    refine buildPlain_of_not_targetOk _ (not_targetOk_info 0x06 ?_)
    rcases h with hmode | rfl | ⟨w, hw, hbad⟩
    · exact hmode
    · cases hpos
    · exact absurd (hwords w hw) (Nat.not_le.2 hbad)
  · refine require_of_false _ _ (Bool.eq_false_iff.2 fun htest => hrange ?_)
    simpa only [Bool.and_eq_true, decide_eq_true_eq, List.all_eq_true] using htest

theorem buildInfoModeCombos_too_long {mode : Nat} {words : List Nat} (hmode : mode ≤ 15)
    (hrange : ∀ w ∈ words, w ≤ 0xFFFF) (hlong : 16 < words.length) :
    buildMsg (.infoModeCombos mode words) = .error (.sizeOutOfRange (2 * words.length)) := by
  have hlen := length_wordsPayload words
  rw [buildInfoModeCombos_of_range mode (by omega) hrange,
    buildPlain_of_size (targetOk_info hmode rfl) (.inr (by omega)), hlen]

/-- The text encoder's first test, its flags test and its length test (42_info.md R173). -/
theorem encodeText_refuses (text : List Byte) (flags : Option (List Byte)) :
    (¬ AsciiText text → encodeText text flags = .error .fieldOutOfRange) ∧
    (AsciiText text → (∃ fl, flags = some fl ∧ fl.length ≠ 6) →
      encodeText text flags = .error .missingFlagField) ∧
    (AsciiText text →
      (flags = none ∧ 12 ≤ text.length ∨ ∃ fl, flags = some fl ∧ fl.length = 6 ∧ 6 ≤ text.length) →
      encodeText text flags = .error .textTooLong) := by
  refine ⟨fun hbad => ?_, fun h hfl => ?_, fun h hlong => ?_⟩
  · exact require_of_false _ _ (Bool.eq_false_iff.2 (mt (textInRange_iff text).1 hbad))
  · obtain ⟨fl, rfl, hne⟩ := hfl
    rw [encodeText, require_of_true _ _ ((textInRange_iff text).2 h)]
    exact require_of_false _ _ (beq_eq_false_iff_ne.2 hne)
  · have htest := (textInRange_iff text).2 h
    rcases hlong with ⟨rfl, hlong⟩ | ⟨fl, rfl, hfl, hlong⟩
    · rw [encodeText, require_of_true _ _ htest]
      exact require_of_false _ _ (decide_eq_false (Nat.not_lt.2 hlong))
    · rw [encodeText, require_of_true _ _ htest]
      exact (require_of_true _ _ (beq_iff_eq.2 hfl)).trans
        (require_of_false _ _ (decide_eq_false (Nat.not_lt.2 hlong)))

/-- NAME and UNITS test the mode first and then encode the text (45_tx_encoder.md R252). -/
theorem buildText_refuses (id : Byte) {mode : Nat} {text : List Byte} {flags : Option (List Byte)}
    {c : Condition} (h : 15 < mode ∧ c = .fieldOutOfRange ∨ encodeText text flags = .error c ∧
      (mode ≤ 15 ∨ c = .fieldOutOfRange)) : buildText id mode text flags = .error c := by
  by_cases hmode : mode ≤ 15
  · rw [buildText, require_of_true _ _ (decide_eq_true hmode)]
    rcases h with ⟨hbad, -⟩ | ⟨henc, -⟩
    · exact absurd hmode (Nat.not_le.2 hbad)
    · rw [henc]
  · have hc : c = .fieldOutOfRange := by
      rcases h with ⟨-, hc⟩ | ⟨-, hle | hc⟩
      · exact hc
      · exact absurd hle hmode
      · exact hc
    rw [buildText, require_of_false _ _ (decide_eq_false hmode), hc]

theorem optionalFlagInRange_iff (x : Option FlagArg) : optionalFlagInRange x = true ↔ ¬ BadFlagArg x := by
  cases x with
  | none => exact ⟨fun _ => id, fun _ => rfl⟩
  | some x => exact flagArgInRange_iff x

theorem buildInfoMapping_refuses (mode : Nat) (input output : Option FlagArg) :
    ((15 < mode ∨ BadFlagArg input ∨ BadFlagArg output) →
      buildMsg (.infoMapping mode input output) = .error .fieldOutOfRange) ∧
    (mode ≤ 15 → ¬ BadFlagArg input → ¬ BadFlagArg output → input = none ∨ output = none →
      buildMsg (.infoMapping mode input output) = .error .missingFlagField) := by
  refine ⟨fun hbad => ?_, fun hmode hi ho hmissing => ?_⟩
  · refine require_of_false _ _ (Bool.eq_false_iff.2 fun htest => ?_)
    simp only [Bool.and_eq_true, decide_eq_true_eq, optionalFlagInRange_iff] at htest
    obtain ⟨⟨hmode, hi⟩, ho⟩ := htest
    rcases hbad with hbad | hbad | hbad
    · exact Nat.not_le.2 hbad hmode
    · exact hi hbad
    · exact ho hbad
  · have htest :
        (decide (mode ≤ 15) && optionalFlagInRange input && optionalFlagInRange output) = true := by
      simp only [Bool.and_eq_true, decide_eq_true_eq, optionalFlagInRange_iff]
      exact ⟨⟨hmode, hi⟩, ho⟩
    refine (require_of_true _ _ htest).trans ?_
    rcases hmissing with rfl | rfl
    · rfl
    · cases input <;> rfl

/-- Settles O16: each builder tests the ranges, then the flags, then the text, then the length. -/
theorem encodeRefusalsInOrder : Obligations.EncodeRefusalsInOrder := by
  refine ⟨fun b => buildSys_refuses, fun t ht => ?type, fun baud hbaud => ?speed,
    fun counts => buildCmdModes_refuses, fun fw hw hbad => ?version, fun raw hsize mode => ?size,
    fun mode raw hmode => ?data, fun mode hmode lo hi => ?range,
    fun mode ds df fig dec => buildInfoFormat_refuses,
    fun mode words => ⟨buildInfoModeCombos_refuses, buildInfoModeCombos_too_long⟩,
    fun mode text flags => ?text, buildInfoMapping_refuses⟩
  case type => exact require_of_false _ _ (decide_eq_false (Nat.not_le.2 ht))
  case speed => exact require_of_false _ _ (decide_eq_false (Nat.not_lt.2 hbaud))
  case version =>
    refine require_of_false _ _ (Bool.eq_false_iff.2 fun htest => hbad ?_)
    rwa [Bool.and_eq_true, versionInRange_iff, versionInRange_iff] at htest
  case size =>
    have hcmd {code : Nat} (h : code ≤ 7) := buildPlain_of_size (targetOk_cmd h) hsize
    exact ⟨hcmd (by decide), hcmd (by decide), hcmd (by decide), hcmd (by decide),
      fun hmode => buildPlain_of_size (t := .data mode) hmode hsize⟩
  case data => exact buildPlain_of_not_targetOk (t := .data mode) raw (Nat.not_le.2 hmode)
  case range =>
    have hinfo (id p) := buildPlain_of_not_targetOk p (not_targetOk_info id hmode)
    exact ⟨hinfo _ _, hinfo _ _, hinfo _ _⟩
  case text =>
    obtain ⟨hfield, hflags, hlong⟩ := encodeText_refuses text flags
    have hboth {c : Condition} (h : 15 < mode ∧ c = .fieldOutOfRange ∨ encodeText text flags = .error c ∧
        (mode ≤ 15 ∨ c = .fieldOutOfRange)) :
        buildMsg (.infoName mode text flags) = .error c ∧ buildMsg (.infoUnits mode text flags) = .error c :=
      ⟨buildText_refuses 0x00 h, buildText_refuses 0x04 h⟩
    refine ⟨fun hbad => hboth ?_, fun hmode h hfl => hboth (.inr ⟨hflags h hfl, .inl hmode⟩),
      fun hmode h hl => hboth (.inr ⟨hlong h hl, .inl hmode⟩)⟩
    exact hbad.imp (fun hmode => ⟨hmode, rfl⟩) fun hbad => ⟨hfield hbad, .inr rfl⟩

/-! ### Queries (45_tx_encoder.md R262, R263) -/

theorem encodeQuery_frame (cfg : Cfg) (spec : MsgSpec) :
    (∀ b, buildMsg spec = .ok b → encodeQuery cfg (.frame spec) = .ok ⟨b.bytes, false⟩) ∧
    (∀ c, buildMsg spec = .error c → encodeQuery cfg (.frame spec) = .error c) := by
  rw [encodeQuery]
  exact ⟨fun b hb => by rw [hb], fun c hc => by rw [hc]⟩

/-- The EXT_MODE frame of one byte (45_tx_encoder.md R262). -/
theorem buildFrame_extMode (b : Byte) :
    buildFrame (.cmd 6) [b] = .ok [0x46, b, 0xFF ^^^ 0x46 ^^^ b] := rfl

/-- The byte a two-part write begins with (10_state.md R24). -/
def extByte (cfg : Cfg) (mode : Nat) : Byte := if 8 ≤ mode then cfg.extHi else cfg.extLo

theorem buildWrite2_of_mode (cfg : Cfg) {mode : Nat} (raw : List Byte) (hmode : mode ≤ 15) :
    (∀ f2, buildFrame (.data (mode % 8)) raw = .ok f2 → buildWrite2 cfg mode raw =
      .ok ([0x46, extByte cfg mode, 0xFF ^^^ 0x46 ^^^ extByte cfg mode] ++ f2)) ∧
    (∀ c, buildFrame (.data (mode % 8)) raw = .error c → buildWrite2 cfg mode raw = .error c) := by
  rw [buildWrite2, require_of_true _ _ (decide_eq_true hmode)]
  simp only [buildFrame_extMode]
  exact ⟨fun f2 h => by rw [h]; rfl, fun c h => by rw [h]⟩

theorem encodeQuery_twoPart (cfg : Cfg) {mode : Nat} (raw : List Byte) {two : Bool}
    (h : 8 ≤ mode ∨ two = true) :
    (∀ bs, buildWrite2 cfg mode raw = .ok bs → encodeQuery cfg (.write mode raw two) = .ok ⟨bs, true⟩) ∧
    (∀ c, buildWrite2 cfg mode raw = .error c → encodeQuery cfg (.write mode raw two) = .error c) := by
  rw [encodeQuery, if_pos h]
  exact ⟨fun bs hbs => by rw [hbs], fun c hc => by rw [hc]⟩

theorem encodeQuery_onePart (cfg : Cfg) {mode : Nat} (raw : List Byte) {two : Bool}
    (h : ¬ (8 ≤ mode ∨ two = true)) :
    (∀ bs, buildFrame (.data mode) raw = .ok bs →
      encodeQuery cfg (.write mode raw two) = .ok ⟨bs, false⟩) ∧
    (∀ c, buildFrame (.data mode) raw = .error c → encodeQuery cfg (.write mode raw two) = .error c) := by
  rw [encodeQuery, if_neg h]
  exact ⟨fun bs hbs => by rw [hbs], fun c hc => by rw [hc]⟩

/-- The multi-part mark is the form of the query. -/
theorem encodeQuery_multipart {cfg : Cfg} {q : Query} {eq : EncodedQuery} (h : encodeQuery cfg q = .ok eq) :
    eq.multipart = true ↔ ∃ mode raw two, q = .write mode raw two ∧ (8 ≤ mode ∨ two = true) := by
  cases q with
  | frame spec =>
    obtain ⟨hok, herror⟩ := encodeQuery_frame cfg spec
    cases hb : buildMsg spec with
    | error c => cases (herror c hb).symm.trans h
    | ok b =>
      cases (hok b hb).symm.trans h
      simp
  | write mode raw two =>
    by_cases hform : 8 ≤ mode ∨ two = true
    · obtain ⟨hok, herror⟩ := encodeQuery_twoPart cfg raw hform
      cases hb : buildWrite2 cfg mode raw with
      | error c => cases (herror c hb).symm.trans h
      | ok bs =>
        cases (hok bs hb).symm.trans h
        exact ⟨fun _ => ⟨mode, raw, two, rfl, hform⟩, fun _ => rfl⟩
    · obtain ⟨hok, herror⟩ := encodeQuery_onePart cfg raw hform
      cases hb : buildFrame (.data mode) raw with
      | error c => cases (herror c hb).symm.trans h
      | ok bs =>
        cases (hok bs hb).symm.trans h
        refine ⟨nofun, ?_⟩
        rintro ⟨_, _, _, heq, hform'⟩
        cases heq
        exact absurd hform' hform

theorem targetOk_data_mod (mode : Nat) : TargetOk (.data (mode % 8)) :=
  Nat.le_of_lt_succ (Nat.mod_lt mode (by decide))

/-- A write with a mode and a payload in range (45_tx_encoder.md R262, R263). -/
theorem encodeQuery_write_ok (cfg : Cfg) {mode : Nat} {raw f2 : List Byte} (two : Bool) (hmode : mode ≤ 15)
    (hf2 : buildFrame (.data (mode % 8)) raw = .ok f2) :
    (8 ≤ mode ∨ two = true → encodeQuery cfg (.write mode raw two) =
      .ok ⟨[0x46, extByte cfg mode, 0xFF ^^^ 0x46 ^^^ extByte cfg mode] ++ f2, true⟩) ∧
    (¬ (8 ≤ mode ∨ two = true) → encodeQuery cfg (.write mode raw two) = .ok ⟨f2, false⟩) := by
  refine ⟨fun hform => ?_, fun hform => ?_⟩
  · obtain ⟨hwrite, -⟩ := buildWrite2_of_mode cfg raw hmode
    obtain ⟨hquery, -⟩ := encodeQuery_twoPart cfg raw hform
    exact hquery _ (hwrite f2 hf2)
  · obtain ⟨hquery, -⟩ := encodeQuery_onePart cfg raw hform
    rw [Nat.mod_eq_of_lt (by omega)] at hf2
    exact hquery f2 hf2

theorem encodeQuery_write_mode_out_of_range (cfg : Cfg) {mode : Nat} (raw : List Byte) (two : Bool)
    (h : 15 < mode) : encodeQuery cfg (.write mode raw two) = .error .fieldOutOfRange := by
  obtain ⟨-, hquery⟩ := encodeQuery_twoPart cfg raw (two := two) (.inl (by omega : 8 ≤ mode))
  exact hquery _ (require_of_false _ _ (decide_eq_false (Nat.not_le.2 h)))

theorem encodeQuery_write_size_out_of_range (cfg : Cfg) {mode : Nat} {raw : List Byte} (two : Bool)
    (hmode : mode ≤ 15) (hsize : raw.length = 0 ∨ 32 < raw.length) :
    encodeQuery cfg (.write mode raw two) = .error (.sizeOutOfRange raw.length) := by
  have hdata := buildFrame_of_size (targetOk_data_mod mode) hsize
  by_cases hform : 8 ≤ mode ∨ two = true
  · obtain ⟨-, hwrite⟩ := buildWrite2_of_mode cfg raw hmode
    obtain ⟨-, hquery⟩ := encodeQuery_twoPart cfg raw hform
    exact hquery _ (hwrite _ hdata)
  · obtain ⟨-, hquery⟩ := encodeQuery_onePart cfg raw hform
    rw [Nat.mod_eq_of_lt (by omega)] at hdata
    exact hquery _ hdata

/-- Settles O19: the three forms of a query and the two refusals of a write. -/
theorem writeQueryBytes : Obligations.WriteQueryBytes := by
  refine ⟨encodeQuery_frame, fun cfg raw hpos hle => ?extMode, fun cfg q eq => encodeQuery_multipart,
    fun cfg mode raw two hmode hpos hle => ?write,
    fun cfg mode raw two => encodeQuery_write_mode_out_of_range cfg raw two,
    fun cfg mode raw two => encodeQuery_write_size_out_of_range cfg two⟩
  case extMode =>
    obtain ⟨sc, -, hf⟩ := buildFrame_of_targetOk (targetOk_cmd (by decide : 6 ≤ 7)) hpos hle
    obtain ⟨hquery, -⟩ := encodeQuery_frame cfg (.cmdExtMode raw)
    have hbuilt : buildMsg (.cmdExtMode raw) =
        .ok { bytes := (builtRaw (.cmd 6) (targetHeader (.cmd 6) sc) raw).bytes } := by
      rw [buildMsg, buildCmdExtMode, buildPlain, hf]
    exact ⟨_, hf, hquery _ hbuilt⟩
  case write =>
    obtain ⟨sc, -, hf2⟩ := buildFrame_of_targetOk (targetOk_data_mod mode) hpos hle
    obtain ⟨htwo, hone⟩ := encodeQuery_write_ok cfg two hmode hf2
    refine ⟨_, hf2, fun hhigh => ?_, fun hlow h => ?_, fun hlow h => hone (by simp [h, Nat.not_le.2 hlow])⟩
    · rw [htwo (.inl hhigh), extByte, if_pos hhigh]
    · rw [htwo (.inr h), extByte, if_neg (Nat.not_le.2 hlow)]

end Sys2Proof.Machine
